-- ==== Sys2Proof/Word.lean ====
section
/-! DEFINITION. The word types of the block (spec 00_scope.md R10): bytes, nibbles, the 16-bit command
word (30_encoding.md R65) and the 32-bit data words of a response (R68). -/

namespace Sys2Proof

/-- 8 bits (R10). -/
abbrev Byte := BitVec 8

/-- 4 bits (R10). -/
abbrev Nibble := BitVec 4

/-- A command word (R65). -/
abbrev CmdWord := BitVec 16

/-- A data word `d0`, `d1` of a response (R68). -/
abbrev DataWord := BitVec 32

/-- A dispatch key (41_decode.md R111). -/
abbrev Key := BitVec 24

end Sys2Proof
end

