-- ==== Sys2Proof/Syntax.lean ====
section
/-! DEFINITION. The ten commands of spec/opcode_table.json, one constructor per row (30_encoding.md
R66), and the names of the ways a command word can be illegal (R67). -/

namespace Sys2Proof

/-- The commands (R66). Every operand is the word's OPD field or the part of it the row names. -/
inductive Instr where
  /-- PUSH, 40_framer.md R80: append the byte `b`. -/
  | push (b : Byte)
  /-- FRAME, 40_framer.md R81. -/
  | frame
  /-- CLEAR, 40_framer.md R90. -/
  | clear
  /-- SETACK, 40_framer.md R92: `v` is OPD bit 0. -/
  | setack (v : BitVec 1)
  /-- CKSUM, 42_nibble_checksum.md R137: variant `k`, legal from 1 to 8. -/
  | cksum (k : Byte)
  /-- NIB, 42_nibble_checksum.md R131: nibble index `j`. -/
  | nib (j : Byte)
  /-- NSUM, 42_nibble_checksum.md R133: nibble count `n`. -/
  | nsum (n : Byte)
  /-- TEMP, 42_nibble_checksum.md R142. -/
  | temp
  /-- KEY, 41_decode.md R126. -/
  | key
  /-- STAT, 40_framer.md R93. -/
  | stat
  deriving DecidableEq, Repr

/-- Why a command word is illegal (R67). Every one of them raises EILL; which of several reasons is
named first is not observable (DESIGN CHOICE, log entry 13). -/
inductive Illegal where
  /-- RSV is not 0. -/
  | rsvNonzero
  /-- OP is 0x0 or 0xB to 0xF. -/
  | reservedOp
  /-- OP is FRAME, CLEAR, TEMP, KEY or STAT and OPD is not 0x00. -/
  | opdNonzero
  /-- OP is SETACK and OPD[7:1] is not 0. -/
  | setackOperand
  /-- OP is CKSUM and OPD is not in 1 to 8. -/
  | cksumVariant
  deriving DecidableEq, Repr

end Sys2Proof
end

