-- ==== Sys2Proof/WellFormed.lean ====
section
/-! DEFINITION. Which terms of `Instr` a legal command word can stand for: the one operand whose legal
range is smaller than its field is CKSUM's k, 1 to 8 (30_encoding.md R66, R67). -/

namespace Sys2Proof

/-- The operand of the command is in the range R66 gives. -/
def Instr.wellFormed : Instr → Bool
  | .push _ => true
  | .frame => true
  | .clear => true
  | .setack _ => true
  | .cksum k => decide (1 ≤ k.toNat ∧ k.toNat ≤ 8)
  | .nib _ => true
  | .nsum _ => true
  | .temp => true
  | .key => true
  | .stat => true

end Sys2Proof
end

