-- ==== Sys2Proof/Decode.lean ====
section
/-! DEFINITION. The command word's decoder, total and rejecting by name (30_encoding.md R66, R67), and
after it the encoder (R71: a command assembles to `(OP << 12) | OPD`). -/

namespace Sys2Proof

/-- OP, bits 15 to 12 (R66). -/
def opField (w : CmdWord) : BitVec 4 := w.extractLsb' 12 4

/-- RSV, bits 11 to 8 (R66). -/
def rsvField (w : CmdWord) : BitVec 4 := w.extractLsb' 8 4

/-- OPD, bits 7 to 0 (R66). -/
def opdField (w : CmdWord) : Byte := w.extractLsb' 0 8

/-- A command without an operand: OPD must be 0x00 (R66, R67). -/
def decodeBare (opd : Byte) (i : Instr) : Except Illegal Instr :=
  if opd = 0 then .ok i else .error .opdNonzero

/-- SETACK: OPD[7:1] must be 0, the operand is OPD[0] (R66, R67, 40_framer.md R92). -/
def decodeSetack (opd : Byte) : Except Illegal Instr :=
  if opd.extractLsb' 1 7 = 0 then .ok (.setack (opd.extractLsb' 0 1)) else .error .setackOperand

/-- CKSUM: OPD must be 1 to 8 (R66, R67). -/
def decodeCksum (opd : Byte) : Except Illegal Instr :=
  if 1 ≤ opd.toNat ∧ opd.toNat ≤ 8 then .ok (.cksum opd) else .error .cksumVariant

/-- The opcode map of R66, once RSV is 0. -/
def decodeOp (op : BitVec 4) (opd : Byte) : Except Illegal Instr :=
  match op.toNat with
  | 0x1 => .ok (.push opd)
  | 0x2 => decodeBare opd .frame
  | 0x3 => decodeBare opd .clear
  | 0x4 => decodeSetack opd
  | 0x5 => decodeCksum opd
  | 0x6 => .ok (.nib opd)
  | 0x7 => .ok (.nsum opd)
  | 0x8 => decodeBare opd .temp
  | 0x9 => decodeBare opd .key
  | 0xA => decodeBare opd .stat
  | _ => .error .reservedOp

/-- The decoder of command words (R66, R67). -/
def decode (w : CmdWord) : Except Illegal Instr :=
  if rsvField w = 0 then decodeOp (opField w) (opdField w) else .error .rsvNonzero

/-- The instruction the decoder reads from a table word of `nbits` bits; the command word is the whole
instruction, 16 bits (30_encoding.md R65). -/
def decodeTableWord (nbits w : Nat) : Option Instr :=
  match decode (BitVec.ofNat 16 (w % 2 ^ nbits)) with
  | .ok i => some i
  | .error _ => none

/-- OP of a command (R66). -/
def Instr.opcode : Instr → BitVec 4
  | .push _ => 0x1
  | .frame => 0x2
  | .clear => 0x3
  | .setack _ => 0x4
  | .cksum _ => 0x5
  | .nib _ => 0x6
  | .nsum _ => 0x7
  | .temp => 0x8
  | .key => 0x9
  | .stat => 0xA

/-- OPD of a command (R66). -/
def Instr.operand : Instr → Byte
  | .push b => b
  | .frame => 0
  | .clear => 0
  | .setack v => (0 : BitVec 7) ++ v
  | .cksum k => k
  | .nib j => j
  | .nsum n => n
  | .temp => 0
  | .key => 0
  | .stat => 0

/-- The word of a command: OP, then RSV = 0, then OPD (R66, R71). -/
def encode (i : Instr) : CmdWord := i.opcode ++ (0 : BitVec 4) ++ i.operand

end Sys2Proof
end

