-- ==== Sys2Proof/Machine/Literals.lean ====
section
/-! DEFINITION. The source's numeric literals, taken as written (spec 00_scope.md R5), one named
constant each (93_implementation_defined.md U1 to U7), so that a corrected source changes one place. -/

namespace Sys2Proof.Machine

open Sys2Proof

/-- U1: the mask of the second probe (41_decode.md R112). -/
def keyMask : Key := 0xFFFFF

/-- U2: the constant every checksum subtracts (42_nibble_checksum.md R134). -/
def ckBias : Nat := 10

/-- U3: the nibble that holds the tens of the temperature (R141). -/
def tempTensNibble : Nat := 10

/-- U3: the nibble that holds the ones of the temperature (R141). -/
def tempOnesNibble : Nat := 11

/-- U3: the nibble that holds the tenths of the temperature (R141). -/
def tempTenthsNibble : Nat := 8

/-- U4: the byte that holds the temperature's sign bit (R141). -/
def tempSignByte : Nat := 6

/-- U4: the sign bit's place in that byte (R141). -/
def tempSignBit : Nat := 3

/-- The bytes the temperature formula needs (R141, R142). -/
def tempBytes : Nat := 7

/-- U5: the payload byte that is the device address (41_decode.md R122). -/
def addrByte : Nat := 3

/-- The payload bytes that make the type code (41_decode.md R110, R118). -/
def typeCodeBytes : Nat := 2

/-- The least BUF_CAP: the longest DATA frame (00_scope.md R8, 30_encoding.md R62). -/
def bufCapMin : Nat := 17

/-- The greatest BUF_CAP (00_scope.md R8). -/
def bufCapMax : Nat := 65535

/-- U6, U7: the key of type code 0x1A2D at 80 bits (41_decode.md R115 (a)). -/
def thgrKey : Key := 0x1A2D50

/-- The part name of that row (R115 (a)). -/
def thgrName : String := "THGR228N"

/-- U6, U7: the key of type code 0x9AEC at 104 bits (R115 (b)). -/
def dateTimeKey : Key := 0x9AEC68

/-- U6: the two bit-lengths one part has rows at (R115 (c)). -/
def twinBits : Nat × Nat := (80, 120)

end Sys2Proof.Machine
end

