-- ==== Sys2Proof/Config.lean ====
section
/-! DEFINITION. The implementation parameters of spec 00_scope.md R8 as plain data, the open extractor
functions as constants without a body (log entry 4), and the test configuration TCFG of
95_test_vectors.md section 0, which only `State.reset` carries (log entry 1). The checks a
configuration must pass stand in Machine/ConfigCheck.lean. -/

namespace Sys2Proof

/-- A checksum variant selector: `v` stands for variant `k = v + 1`, k from 1 to 8 (42_nibble_checksum.md R135). -/
abbrev CkSel := Fin 8

/-- A part identifier: the index of its name in PART_NAME (41_decode.md R114). -/
abbrev PartId := Nat

/-- The extraction methods (42_nibble_checksum.md R151); variants are numbered from 1. -/
inductive Method where
  | commonTemp
  | tempHum
  | tempHumPressure
  | anemometer (i : Nat)
  | rain (i : Nat)
  | uv (i : Nat)
  | dateTime
  | battery
  deriving DecidableEq, Repr, Inhabited

/-- A row's entry `(part, ck, method)` (41_decode.md R114): `ck = none` is the spec's 0, `method = none` its `none`. -/
structure Entry where
  part : PartId
  ck : Option CkSel
  method : Option Method
  deriving DecidableEq, Repr, Inhabited

/-- The triple `(CK_N, CK_HI, CK_LO)` of one checksum variant (42_nibble_checksum.md R135). -/
structure CkTriple where
  n : Nat
  hi : Nat
  lo : Nat
  deriving DecidableEq, Repr, Inhabited

/-- REQ_BYTES for every method (42_nibble_checksum.md R158). The lengths of the three lists are the
counts a, r and u (R151); element `i - 1` belongs to variant `i`. -/
structure ReqBytes where
  commonTemp : Nat
  tempHum : Nat
  tempHumPressure : Nat
  anemometer : List Nat
  rain : List Nat
  uv : List Nat
  dateTime : Nat
  battery : Nat
  deriving DecidableEq, Repr, Inhabited

/-- The configuration (00_scope.md R8), constant while the block runs (10_state.md R29). `formulas`
names which set of open extractor functions this configuration has (log entry 4). -/
structure Config where
  bufCap : Nat
  versionSentinel : Byte
  modeSentinels : List Byte
  ck : Vector CkTriple 8
  table : List (Key × Entry)
  partNames : List String
  req : ReqBytes
  formulas : Nat
  deriving DecidableEq, Repr

/-! ### Measurement records (42_nibble_checksum.md R150) -/

/-- The kind of a measurement (R150). -/
inductive MeasKind where
  | temperature
  | humidity
  | pressure
  | speed
  | direction
  | battery
  | uv
  | rainDistance
  | rainCount
  | dateTime (component : String)
  deriving DecidableEq, Repr, Inhabited

/-- A measured value: `num * 10^scale`, or a string (R150). -/
inductive MeasValue where
  | numeric (num : Int) (scale : Int)
  | text (str : String)
  deriving DecidableEq, Repr, Inhabited

/-- A measurement without its kind (R150): value, optional unit, optional qualitative string,
optional secondary `(num, scale)`. -/
structure MeasBody where
  value : MeasValue
  unit : Option String
  qual : Option String
  sec : Option (Int × Int)
  deriving DecidableEq, Repr, Inhabited

/-- A measurement record (R150). -/
structure Measurement where
  kind : MeasKind
  body : MeasBody
  deriving DecidableEq, Repr, Inhabited

/-! ### The open functions (R152 to R157): no body, so nothing can be proved of a value of theirs.
Each takes the configuration's `formulas` first and the bytes the method may read (log entry 5). -/

/-- `HUM(P)` (R154), the HUMIDITY measurement's body. DESIGN CHOICE, log entry 4: a free function. -/
opaque Config.humFormula (formulas : Nat) (bytes : List Byte) : MeasBody

/-- `PRES(P)` (R155), the PRESSURE measurement's body. Log entry 4. -/
opaque Config.presFormula (formulas : Nat) (bytes : List Byte) : MeasBody

/-- `EXTRA[m](P)` (R153 to R155), the further measurements of a temperature method. Log entry 4. -/
opaque Config.extraFormula (formulas : Nat) (m : Method) (bytes : List Byte) : List Measurement

/-- `EXTRACT[DATETIME](P, part)` (R156): components and their values; every kind is DATETIME_component. Log entry 4. -/
opaque Config.dateTimeFormula (formulas : Nat) (bytes : List Byte) (part : PartId) : List (String × MeasBody)

/-- `EXTRACT[BATTERY](P, part)` (R157): only BATTERY measurements. Log entry 4. -/
opaque Config.batteryFormula (formulas : Nat) (bytes : List Byte) (part : PartId) : List MeasBody

/-- `EXTRACT[m](P, part)` for ANEMOMETER_i, RAIN_i and UV_i (R157): any kinds. Log entry 4. -/
opaque Config.openFormula (formulas : Nat) (m : Method) (bytes : List Byte) (part : PartId) : List Measurement

/-- TCFG, the test configuration of 95_test_vectors.md section 0. DESIGN CHOICE, log entry 1: every
value in it is a test value of the spec; `formulas`, the counts a = r = u = 1 and the order of the
parts are the model's. -/
def Config.tcfg : Config where
  bufCap := 32
  versionSentinel := 0x4D
  modeSentinels := [0x2C, 0x41]
  ck := #v[⟨12, 12, 13⟩, ⟨16, 16, 17⟩, ⟨18, 18, 19⟩, ⟨20, 20, 21⟩,
           ⟨16, 17, 16⟩, ⟨14, 14, 15⟩, ⟨22, 22, 23⟩, ⟨24, 24, 25⟩]
  table := [(0x1A2D50, ⟨0, some 1, some .tempHum⟩),
            (0x1A2D78, ⟨0, some 1, some .tempHum⟩),
            (0x0AEC68, ⟨1, none, some .dateTime⟩),
            (0x0CC350, ⟨2, none, none⟩)]
  partNames := ["THGR228N", "PART_DT", "PART_U"]
  req := { commonTemp := 7, tempHum := 7, tempHumPressure := 7, anemometer := [4], rain := [4],
           uv := [4], dateTime := 4, battery := 4 }
  formulas := 0

end Sys2Proof
end

