-- ==== Sys2Proof/Machine/State.lean ====
section
/-! DEFINITION. The block's state (spec 10_state.md R20 to R33), the response and event records it
returns (30_encoding.md R68 to R70), the outcomes that stop a step, and the state after reset. -/

namespace Sys2Proof.Machine

open Sys2Proof

/-! ### Named codes (30_encoding.md R69); their numbers stand in Flags.lean -/

/-- Event type, ETYPE (R69). -/
inductive EType where
  | unknown
  | empty
  | version
  | mode
  | family
  deriving DecidableEq, Repr

/-- Decode status, DSTAT (R69). -/
inductive DStat where
  | none
  | short
  | miss
  | unhandled
  | ckFail
  | ok
  deriving DecidableEq, Repr

/-- Lookup result, LOOKUP (R69). -/
inductive Lookup where
  | noEntry
  | exact
  | masked
  deriving DecidableEq, Repr

/-- Status code `st` of a response (R69). -/
inductive Status where
  | ok
  | noMsg
  | incomplete
  | full
  | eIll
  | eRange
  deriving DecidableEq, Repr

/-- The frame classes of a header (30_encoding.md R63). -/
inductive HeaderClass where
  | version
  | mode
  | empty
  | data
  deriving DecidableEq, Repr

/-- The two error causes (60_exceptions.md R161). -/
inductive ErrorCause where
  | eIll
  | eRange
  deriving DecidableEq, Repr

/-! ### Records -/

/-- What the decode unit returns (41_decode.md R117): a field that carries no value is absent. -/
structure DecodeResult where
  etype : EType
  dstat : DStat
  lookup : Option Lookup
  key : Option Key
  part : Option PartId
  cksel : Option (BitVec 4)
  method : Option Method
  ckOk : Option Bool
  addr : Option Byte
  meas : List Measurement
  deriving DecidableEq, Repr

/-- The event record (30_encoding.md R70): the decode fields and the frame's own. -/
structure Event extends DecodeResult where
  hdr : Byte
  mflag : Bool
  bits : BitVec 7
  consumed : BitVec 16
  plen : BitVec 16
  payload : List Byte
  deriving DecidableEq, Repr

/-- The response record (30_encoding.md R68). -/
structure Response where
  st : Status
  d0 : DataWord
  d1 : DataWord
  ev : Option Event
  deriving DecidableEq, Repr

/-- The frame register's fields beside FR.valid (10_state.md R24). -/
structure FrameReg where
  hdr : Byte
  etype : EType
  payload : List Byte
  plen : BitVec 16
  deriving DecidableEq, Repr

/-- What the host can do to the block: issue a command word (30_encoding.md R65), or assert the reset
input between commands (70_reset_and_hazards.md R180). -/
inductive HostInput where
  | word (w : CmdWord)
  | reset
  deriving DecidableEq, Repr

/-- The state. `cfg` is the constant configuration (R29, log entry 1); `buf` to `errRange` are the
block's state, exactly R20's; `inbox` and `outbox` are the model's own view of the command channel
(log entry 2). `fr = none` is FR.valid = 0, when the other fields are absent (R25). -/
structure State where
  cfg : Config
  buf : List Byte
  ackPending : Bool
  fr : Option FrameReg
  errIll : Bool
  errRange : Bool
  inbox : List HostInput
  outbox : List Response
  deriving DecidableEq, Repr

/-- Nothing stops the block: no trap, no fault (60_exceptions.md R162, R166). Its errors EILL and ERANGE
are responses, so they are next states. No constructor: no step can raise a fault (safe). -/
inductive Fault where
  deriving DecidableEq, Repr

/-- Why a step has no meaning. -/
inductive Refusal where
  /-- Raised by `exec` for an instruction without a meaning yet; safe: nothing is proved of it. -/
  | notModelled (mnemonic : String)
  /-- Raised by `step` when the configuration breaks a check of 00_scope.md R9, which gives it no
  machine at all; safe: the spec itself refuses. -/
  | configRefused
  deriving DecidableEq, Repr

/-- What a step or a meaning answers. -/
abbrev Result := Host.Outcome State Fault Refusal

/-- The state after reset under the configuration `c` (10_state.md R33), with nothing issued and
nothing answered yet (log entry 2). -/
def State.resetOf (c : Config) : State where
  cfg := c
  buf := []
  ackPending := false
  fr := none
  errIll := false
  errRange := false
  inbox := []
  outbox := []

/-- The machine right after reset (R33), under the configuration TCFG (DESIGN CHOICE, log entry 1). -/
def State.reset : State := State.resetOf Config.tcfg

end Sys2Proof.Machine
end

