-- ==== Sys2Proof/Machine/Operands.lean ====
section
/-! DEFINITION. Operands and fields: widening with zeros (spec 00_scope.md R10, 30_encoding.md R66), the
header byte's fields (30_encoding.md R60), the payload length (R61) and the CKSUM operand. -/

namespace Sys2Proof.Machine

open Sys2Proof

/-- `zext_32` of a natural: its low 32 bits (00_scope.md R10). -/
def zext32 (n : Nat) : DataWord := BitVec.ofNat 32 n

/-- `zext_32` of a bit. -/
def bit32 (b : Bool) : DataWord := zext32 b.toNat

/-- The M flag, bit 7 of the header (30_encoding.md R60). -/
def hdrM (hdr : Byte) : Bool := hdr.getLsbD 7

/-- BITS, bits 6 to 0 of the header (R60). -/
def hdrBits (hdr : Byte) : BitVec 7 := hdr.extractLsb' 0 7

/-- `L(bits) = ceil(bits / 8)`, the payload bytes of a DATA frame (R61). -/
def payloadBytes (bits : Nat) : Nat := (bits + 7) / 8

/-- The variant a CKSUM operand names, if it is legal (30_encoding.md R67, 42_nibble_checksum.md R137). -/
def ckSelOf? (k : Byte) : Option CkSel :=
  if h : 1 ≤ k.toNat ∧ k.toNat ≤ 8 then some ⟨k.toNat - 1, by omega⟩ else none

/-- An entry's `cksel` code: k, or 0 for no checksum (30_encoding.md R70, 41_decode.md R114). -/
def ckCode (ck : Option CkSel) : BitVec 4 :=
  match ck with
  | none => 0
  | some v => BitVec.ofNat 4 (v.val + 1)

/-- Byte `i` of a payload. Every rule checks the length before it reads (00_scope.md R12); in a state no
run reaches, where `plen` exceeds the payload, a missing byte reads 0 (DESIGN CHOICE, log entry 15). -/
def byteAt (p : List Byte) (i : Nat) : Byte := p.getD i 0

end Sys2Proof.Machine
end

