-- ==== Sys2Proof/Machine/Arith.lean ====
section
/-! DEFINITION. The arithmetic unit: nibbles, nibble sums, checksums and the temperature formula (spec
42_nibble_checksum.md R130 to R143). -/

namespace Sys2Proof.Machine

open Sys2Proof

/-- `nib(P, j)`: nibble j of a payload, the high nibble of each byte first (R130, 20_memory.md R43). -/
def nib (p : List Byte) (j : Nat) : Nibble :=
  if j % 2 = 0 then (byteAt p (j / 2)).extractLsb' 4 4 else (byteAt p (j / 2)).extractLsb' 0 4

/-- `NSUM(P, n)`: the exact sum of nibbles 0 to n-1 (R132). -/
def nsum (p : List Byte) : Nat → Nat
  | 0 => 0
  | n + 1 => nsum p n + (nib p n).toNat

/-- The highest nibble index a variant reads (R136). -/
def ckReach (t : CkTriple) : Nat := max (t.n - 1) (max t.hi t.lo)

/-- Every nibble the variant reads exists in a payload of `len` bytes (R136). -/
def ckInRange (t : CkTriple) (len : Nat) : Bool := decide (ckReach t < 2 * len)

/-- S: the sum less 10, masked to a byte with two's-complement wrap (R134, 00_scope.md R11). -/
def ckSum (t : CkTriple) (p : List Byte) : Byte := BitVec.ofInt 8 ((nsum p t.n : Int) - ckBias)

/-- E: the expected byte, from two nibble positions (R134). -/
def ckExpected (t : CkTriple) (p : List Byte) : Byte := nib p t.hi ++ nib p t.lo

/-- `CK(k, P)`: the checksum passes (R134). -/
def ckPass (t : CkTriple) (p : List Byte) : Bool := decide (ckSum t p = ckExpected t p)

/-- The temperature's magnitude in tenths (R141). -/
def tempMag (p : List Byte) : Nat :=
  (nib p tempTensNibble).toNat * 100 + (nib p tempOnesNibble).toNat * 10 + (nib p tempTenthsNibble).toNat

/-- The temperature's sign bit (R141). -/
def tempNeg (p : List Byte) : Bool := (byteAt p tempSignByte).getLsbD tempSignBit

/-- The temperature in signed tenths (R141). -/
def tempValue (p : List Byte) : Int := if tempNeg p then -(tempMag p : Int) else (tempMag p : Int)

/-- The data word of CKSUM: `E << 16 | S << 8 | ok` (R137). -/
def ckWord (t : CkTriple) (p : List Byte) : DataWord :=
  (0 : BitVec 8) ++ ckExpected t p ++ ckSum t p ++ (0 : BitVec 7) ++ BitVec.ofBool (ckPass t p)

/-- The first data word of TEMP: `neg << 11 | mag` (R142). -/
def tempWord (p : List Byte) : DataWord := bit32 (tempNeg p) <<< 11 ||| zext32 (tempMag p)

/-- The second data word of TEMP: the value modulo 2^32 (R142). -/
def tempValueWord (p : List Byte) : DataWord := BitVec.ofInt 32 (tempValue p)

end Sys2Proof.Machine
end

