-- ==== Sys2Proof/Machine/Extract.lean ====
section
/-! DEFINITION. The method set of a configuration and the extractors (spec 42_nibble_checksum.md R150 to
R158). An open formula is given exactly the bytes its method may read (R152, R158; log entry 5). -/

namespace Sys2Proof.Machine

open Sys2Proof

/-- Element `i - 1` of a list: variants are numbered from 1 (R151). -/
def nthFrom1 (l : List Nat) (i : Nat) : Option Nat :=
  match i with
  | 0 => none
  | n + 1 => l[n]?

/-- `REQ_BYTES[m]`, absent when m is no method of the configuration (R151, R158). -/
def reqBytes? (c : Config) (m : Method) : Option Nat :=
  match m with
  | .commonTemp => some c.req.commonTemp
  | .tempHum => some c.req.tempHum
  | .tempHumPressure => some c.req.tempHumPressure
  | .anemometer i => nthFrom1 c.req.anemometer i
  | .rain i => nthFrom1 c.req.rain i
  | .uv i => nthFrom1 c.req.uv i
  | .dateTime => some c.req.dateTime
  | .battery => some c.req.battery

/-- The bytes of P a method may read: those below `REQ_BYTES[m]` (R152). -/
def readable (c : Config) (m : Method) (p : List Byte) : List Byte := p.take ((reqBytes? c m).getD 0)

/-- The methods whose list starts with the common temperature (R153 to R155). -/
def isTempMethod : Method → Bool
  | .commonTemp => true
  | .tempHum => true
  | .tempHumPressure => true
  | .anemometer _ => false
  | .rain _ => false
  | .uv _ => false
  | .dateTime => false
  | .battery => false

/-- The TEMPERATURE measurement: signed tenths with scale -1 (R153), without unit, qualitative string
or secondary value (log entry 9). -/
def tempMeas (p : List Byte) : Measurement :=
  { kind := .temperature, body := { value := .numeric (tempValue p) (-1), unit := none, qual := none, sec := none } }

/-- The HUMIDITY measurement `HUM(P)` (R154). -/
def humMeas (c : Config) (m : Method) (p : List Byte) : Measurement :=
  { kind := .humidity, body := Config.humFormula c.formulas (readable c m p) }

/-- The PRESSURE measurement `PRES(P)` (R155). -/
def presMeas (c : Config) (m : Method) (p : List Byte) : Measurement :=
  { kind := .pressure, body := Config.presFormula c.formulas (readable c m p) }

/-- The further measurements `EXTRA[m](P)` of a temperature method (R153 to R155, log entry 7). -/
def extraMeas (c : Config) (m : Method) (p : List Byte) : List Measurement :=
  Config.extraFormula c.formulas m (readable c m p)

/-- COMMON_TEMP (R153). -/
def extractCommonTemp (c : Config) (p : List Byte) : List Measurement :=
  tempMeas p :: extraMeas c .commonTemp p

/-- TEMP_HUM (R154). -/
def extractTempHum (c : Config) (p : List Byte) : List Measurement :=
  tempMeas p :: humMeas c .tempHum p :: extraMeas c .tempHum p

/-- TEMP_HUM_PRESSURE (R155). -/
def extractTempHumPressure (c : Config) (p : List Byte) : List Measurement :=
  tempMeas p :: humMeas c .tempHumPressure p :: presMeas c .tempHumPressure p :: extraMeas c .tempHumPressure p

/-- DATETIME: every kind is DATETIME_component (R156). -/
def extractDateTime (c : Config) (p : List Byte) (part : PartId) : List Measurement :=
  (Config.dateTimeFormula c.formulas (readable c .dateTime p) part).map
    fun x => { kind := .dateTime x.1, body := x.2 }

/-- BATTERY: only BATTERY measurements (R157). -/
def extractBattery (c : Config) (p : List Byte) (part : PartId) : List Measurement :=
  (Config.batteryFormula c.formulas (readable c .battery p) part).map fun b => { kind := .battery, body := b }

/-- ANEMOMETER_i, RAIN_i and UV_i: open lists (R157). -/
def extractOpen (c : Config) (m : Method) (p : List Byte) (part : PartId) : List Measurement :=
  Config.openFormula c.formulas m (readable c m p) part

/-- `EXTRACT[m](P, part)` (R152). -/
def extract (c : Config) (m : Method) (p : List Byte) (part : PartId) : List Measurement :=
  match m with
  | .commonTemp => extractCommonTemp c p
  | .tempHum => extractTempHum c p
  | .tempHumPressure => extractTempHumPressure c p
  | .anemometer i => extractOpen c (.anemometer i) p part
  | .rain i => extractOpen c (.rain i) p part
  | .uv i => extractOpen c (.uv i) p part
  | .dateTime => extractDateTime c p part
  | .battery => extractBattery c p part

end Sys2Proof.Machine
end

