-- ==== Sys2Proof/Machine/DecodeUnit.lean ====
section
/-! DEFINITION. The decode unit: type code, keys, the two-probe table lookup and the decode pipeline
(spec 41_decode.md R110 to R123). -/

namespace Sys2Proof.Machine

open Sys2Proof

/-- The type code: payload byte 0 in the high byte (R110). -/
def typeCode (p : List Byte) : BitVec 16 := byteAt p 0 ++ byteAt p 1

/-- The dispatch key `(tc << 8) | bits` (R111). -/
def dispatchKey (p : List Byte) (bits : BitVec 7) : Key := typeCode p ++ (0 : BitVec 1) ++ bits

/-- The masked key (R112). -/
def maskedKey (key : Key) : Key := key &&& keyMask

/-- The entry at a key of the decoder table, if there is one (R113). -/
def probe (c : Config) (key : Key) : Option Entry := c.table.lookup key

/-- The two probes, exact then masked (R113). -/
def lookupEntry (c : Config) (key : Key) : Option (Entry × Lookup) :=
  match probe c key with
  | some e => some (e, .exact)
  | none =>
    match probe c (maskedKey key) with
    | some e => some (e, .masked)
    | none => none

/-- The LOOKUP result alone (R113, 30_encoding.md R69). -/
def lookupResult (c : Config) (key : Key) : Lookup :=
  match lookupEntry c key with
  | some (_, lk) => lk
  | none => .noEntry

/-- The decode result of a frame the decoder does not run on: dstat NONE, every decode field absent
(40_framer.md R81, NODECODE). -/
def noDecode (et : EType) : DecodeResult where
  etype := et
  dstat := .none
  lookup := none
  key := none
  part := none
  cksel := none
  method := none
  ckOk := none
  addr := none
  meas := []

/-- A payload without a type code (R118). -/
def decodeShort : DecodeResult := { noDecode .unknown with dstat := .short }

/-- No table entry (R117). -/
def decodeMiss (key : Key) : DecodeResult :=
  { noDecode .unknown with dstat := .miss, lookup := some .noEntry, key := some key }

/-- An entry without a method (R119). -/
def decodeUnhandled (key : Key) (e : Entry) (lk : Lookup) : DecodeResult :=
  { noDecode .unknown with
    dstat := .unhandled, lookup := some lk, key := some key, part := some e.part, cksel := some (ckCode e.ck) }

/-- A failed checksum (R120). -/
def decodeCkFail (key : Key) (e : Entry) (lk : Lookup) (m : Method) : DecodeResult :=
  { decodeUnhandled key e lk with dstat := .ckFail, method := some m, ckOk := some false }

/-- A recognized frame (R121, R122, R123). -/
def decodeOk (c : Config) (key : Key) (e : Entry) (lk : Lookup) (m : Method) (p : List Byte) : DecodeResult :=
  { decodeUnhandled key e lk with
    etype := .family, dstat := .ok, method := some m, ckOk := some true,
    addr := some (byteAt p addrByte), meas := extract c m p e.part }

/-- The checksum gate of an entry: passed when it names no variant or its variant passes (R120). -/
def ckGate (c : Config) (e : Entry) (p : List Byte) : Bool :=
  match e.ck with
  | none => true
  | some v => ckPass c.ck[v] p

/-- What becomes of a frame whose key has an entry (R117, R119, R120, R121). -/
def decodeEntry (c : Config) (key : Key) (e : Entry) (lk : Lookup) (p : List Byte) : DecodeResult :=
  match e.method with
  | none => decodeUnhandled key e lk
  | some m => if ckGate c e p then decodeOk c key e lk m p else decodeCkFail key e lk m

/-- `Decode(bits, P)` (R117). -/
def decodeFrame (c : Config) (bits : BitVec 7) (p : List Byte) : DecodeResult :=
  if p.length < typeCodeBytes then decodeShort
  else
    match lookupEntry c (dispatchKey p bits) with
    | none => decodeMiss (dispatchKey p bits)
    | some (e, lk) => decodeEntry c (dispatchKey p bits) e lk p

end Sys2Proof.Machine
end

