-- ==== Sys2Proof/Machine/ConfigCheck.lean ====
section
/-! DEFINITION. The configuration check (spec 00_scope.md R9): the constraints of R8, of the checksum
triples (42_nibble_checksum.md R135), of REQ_BYTES (R151, R158) and of the decoder table (41_decode.md
R115, R116). A configuration that breaks one is refused. -/

namespace Sys2Proof.Machine

open Sys2Proof

/-- BUF_CAP is in its range (R8). -/
abbrev BufCapOk (c : Config) : Prop := bufCapMin ≤ c.bufCap ∧ c.bufCap ≤ bufCapMax

/-- Every sentinel has non-zero BITS, there is a mode sentinel, and the version sentinel is none (R8). -/
abbrev SentinelsOk (c : Config) : Prop :=
  hdrBits c.versionSentinel ≠ 0 ∧ c.versionSentinel ∉ c.modeSentinels ∧ c.modeSentinels ≠ []
    ∧ ∀ b ∈ c.modeSentinels, hdrBits b ≠ 0

/-- One checksum triple: a run of at least one nibble, the expected nibbles outside it (R135). -/
abbrev CkTripleOk (t : CkTriple) : Prop := 1 ≤ t.n ∧ t.n ≤ t.hi ∧ t.n ≤ t.lo

/-- The eight triples, each in order and pairwise distinct (R135). -/
abbrev CkOk (c : Config) : Prop := (∀ t ∈ c.ck.toList, CkTripleOk t) ∧ c.ck.toList.Nodup

/-- REQ_BYTES and the counts of the method variants (R151, R158). -/
abbrev ReqOk (r : ReqBytes) : Prop :=
  (tempBytes ≤ r.commonTemp ∧ tempBytes ≤ r.tempHum ∧ tempBytes ≤ r.tempHumPressure)
    ∧ (r.anemometer ≠ [] ∧ r.rain ≠ [] ∧ r.uv ≠ [])
    ∧ (∀ n ∈ r.anemometer ++ r.rain ++ r.uv, addrByte < n)
    ∧ addrByte < r.dateTime ∧ addrByte < r.battery

/-- The bit-length a table key is for, its low byte (R116). -/
def keyBits (key : Key) : Nat := (key.extractLsb' 0 8).toNat

/-- The payload length of every frame a table key can match (R116 check 2). -/
def keyBytes (key : Key) : Nat := payloadBytes (keyBits key)

/-- One table row passes the five checks of R116; check 1's `key < 2^24` is the key's type. A method of
the row must be one of the configuration's (R151, log entry 11). -/
abbrev RowOk (c : Config) (row : Key × Entry) : Prop :=
  (1 ≤ keyBits row.1 ∧ keyBits row.1 ≤ 127)
    ∧ addrByte < keyBytes row.1
    ∧ (row.2.ck.all fun v => ckInRange c.ck[v] (keyBytes row.1)) = true
    ∧ (row.2.method.all fun m => (reqBytes? c m).any fun n => decide (n ≤ keyBytes row.1)) = true
    ∧ row.2.part < c.partNames.length

/-- The entry a key leads to, by either probe, passes a test (R115). -/
def routes (c : Config) (key : Key) (test : Entry → Bool) : Bool :=
  match lookupEntry c key with
  | some (e, _) => test e
  | none => false

/-- R115 (a): 0x1A2D at 80 bits leads to THGR228N, checksum 2, TEMP_HUM. -/
def isThgrEntry (c : Config) (e : Entry) : Bool :=
  decide (c.partNames[e.part]? = some thgrName ∧ e.ck = some 1 ∧ e.method = some .tempHum)

/-- R115 (b): 0x9AEC at 104 bits leads to a DATETIME entry. -/
def isDateTimeEntry (e : Entry) : Bool := decide (e.method = some .dateTime)

/-- R115 (c): one part has a row at 80 bits and a row at 120 bits. -/
def hasTwinPart (c : Config) : Bool :=
  c.table.any fun r => c.table.any fun q =>
    decide (r.2.part = q.2.part ∧ keyBits r.1 = twinBits.1 ∧ keyBits q.1 = twinBits.2)

/-- What the source fixes of the table (R115; log entry 11). -/
abbrev KnownRowsOk (c : Config) : Prop :=
  routes c thgrKey (isThgrEntry c) = true ∧ routes c dateTimeKey isDateTimeEntry = true ∧ hasTwinPart c = true

/-- The decoder table: a map (no key twice), well-formed rows, the known rows (R114 to R116). -/
abbrev TableOk (c : Config) : Prop :=
  (c.table.map Prod.fst).Nodup ∧ (∀ row ∈ c.table, RowOk c row) ∧ KnownRowsOk c

/-- PART_NAME holds no empty name (R8). -/
abbrev PartNamesOk (c : Config) : Prop := ∀ n ∈ c.partNames, n ≠ ""

/-- The configuration passes every check of R9. -/
abbrev ConfigOk (c : Config) : Prop :=
  BufCapOk c ∧ SentinelsOk c ∧ CkOk c ∧ ReqOk c.req ∧ TableOk c ∧ PartNamesOk c

end Sys2Proof.Machine
end

