-- ==== Sys2Proof/Machine/Flags.lean ====
section
/-! DEFINITION. The numbers of the named codes (spec 30_encoding.md R69), the derived bit FULL
(10_state.md R22) and the STATUS word (R26). -/

namespace Sys2Proof.Machine

open Sys2Proof

/-- ETYPE codes, 3 bits (R69). -/
def etypeCode : EType → BitVec 3
  | .unknown => 0
  | .empty => 1
  | .version => 2
  | .mode => 3
  | .family => 4

/-- DSTAT codes, 3 bits (R69). -/
def dstatCode : DStat → BitVec 3
  | .none => 0
  | .short => 1
  | .miss => 2
  | .unhandled => 3
  | .ckFail => 4
  | .ok => 5

/-- LOOKUP codes, 2 bits (R69). -/
def lookupCode : Lookup → BitVec 2
  | .noEntry => 0
  | .exact => 1
  | .masked => 2

/-- Status codes, 4 bits (R69). -/
def statusCode : Status → BitVec 4
  | .ok => 0x0
  | .noMsg => 0x1
  | .incomplete => 0x2
  | .full => 0x3
  | .eIll => 0x8
  | .eRange => 0x9

/-- The status an error cause is reported with (60_exceptions.md R161). -/
def errorStatus : ErrorCause → Status
  | .eIll => .eIll
  | .eRange => .eRange

/-- FULL: BUF holds BUF_CAP bytes (10_state.md R22). -/
def State.full (s : State) : Bool := decide (s.buf.length = s.cfg.bufCap)

/-- FR.valid (10_state.md R24). -/
def State.frValid (s : State) : Bool := s.fr.isSome

/-- The STATUS word (10_state.md R26, 40_framer.md R93): reserved, ERR_RANGE, ERR_ILL, FR_VALID,
ACK_PENDING, FULL, BUF_COUNT. -/
def State.status (s : State) : DataWord :=
  (0 : BitVec 11) ++ BitVec.ofBool s.errRange ++ BitVec.ofBool s.errIll ++ BitVec.ofBool s.frValid
    ++ BitVec.ofBool s.ackPending ++ BitVec.ofBool s.full ++ BitVec.ofNat 16 s.buf.length

end Sys2Proof.Machine
end

