-- ==== Sys2Proof/Machine/Ops.lean ====
section
/-! DEFINITION. The named operations over the state: the buffer (spec 00_scope.md R13), the response
(30_encoding.md R68), raising an error (60_exceptions.md R163, the one exception mechanism of the
block: it has no return, R167), reading the frame register (R161), reset (70_reset_and_hazards.md R180)
and taking the next host input (30_encoding.md R65). -/

namespace Sys2Proof.Machine

open Sys2Proof

/-! ### One update per field -/

def State.withBuf (s : State) (b : List Byte) : State := { s with buf := b }
def State.withAck (s : State) (v : Bool) : State := { s with ackPending := v }
def State.withFr (s : State) (f : Option FrameReg) : State := { s with fr := f }
def State.withErrIll (s : State) (v : Bool) : State := { s with errIll := v }
def State.withErrRange (s : State) (v : Bool) : State := { s with errRange := v }
def State.withInbox (s : State) (l : List HostInput) : State := { s with inbox := l }

/-- Return one response to the host (R65, R68). -/
def State.answer (s : State) (r : Response) : State := { s with outbox := s.outbox ++ [r] }

/-- `respond(st, d0, d1)` without an event (R13, R68). -/
def State.respond (s : State) (st : Status) (d0 d1 : DataWord) : State :=
  s.answer { st := st, d0 := d0, d1 := d1, ev := none }

/-- `respond(OK, ev)` (R13, R68). -/
def State.respondEvent (s : State) (e : Event) : State :=
  s.answer { st := .ok, d0 := 0, d1 := 0, ev := some e }

/-! ### The buffer (R13) -/

/-- `BufAppend(b)`. -/
def State.bufAppend (s : State) (b : Byte) : State := s.withBuf (s.buf ++ [b])

/-- `BufDrop(n)`. -/
def State.bufDrop (s : State) (n : Nat) : State := s.withBuf (s.buf.drop n)

/-- `BufClear()`. -/
def State.bufClear (s : State) : State := s.withBuf []

/-! ### Errors -/

/-- The sticky bit of an error cause is set (10_state.md R27). -/
def State.setSticky (s : State) : ErrorCause → State
  | .eIll => s.withErrIll true
  | .eRange => s.withErrRange true

/-- `raise E`: the sticky bit for E, an error response with zero data, nothing else (60_exceptions.md R163). -/
def State.raise (s : State) (c : ErrorCause) : State := (s.setSticky c).respond (errorStatus c) 0 0

/-- A command that reads FR: ERANGE without a frame or when the frame is out of the command's range,
else the data words it reads (60_exceptions.md R161, R164). -/
def State.readFrame (s : State) (inRange : FrameReg → Bool) (d0 d1 : FrameReg → DataWord) : State :=
  match s.fr with
  | none => s.raise .eRange
  | some f => if inRange f then s.respond .ok (d0 f) (d1 f) else s.raise .eRange

/-! ### Reset and the command channel -/

/-- The reset input: every state element at its reset value, the configuration unchanged (10_state.md
R33, 70_reset_and_hazards.md R180); the host's own lists are not the block's (log entry 2). -/
def State.applyReset (s : State) : State :=
  { State.resetOf s.cfg with inbox := s.inbox, outbox := s.outbox }

/-- Take the host's next input, if it has issued one (R65; 70_reset_and_hazards.md R180). -/
def State.takeInput (s : State) : Option (HostInput × State) :=
  match s.inbox with
  | [] => none
  | x :: rest => some (x, s.withInbox rest)

/-- The host issues an input that the block takes next. -/
def State.issueNext (s : State) (x : HostInput) : State := s.withInbox (x :: s.inbox)

end Sys2Proof.Machine
end

