-- ==== Sys2Proof/Machine/FrameReads.lean ====
section
/-! DEFINITION. The commands that read the frame register: CKSUM, NIB, NSUM, TEMP (spec
42_nibble_checksum.md R131, R133, R137, R142) and KEY (41_decode.md R126). -/

namespace Sys2Proof.Machine

open Sys2Proof

/-- CKSUM (R137): an operand outside 1 to 8 raises EILL before any other check. -/
def execCksum (k : Byte) (s : State) : Result :=
  match ckSelOf? k with
  | none => .next (s.raise .eIll)
  | some v =>
    .next (s.readFrame (fun f => ckInRange s.cfg.ck[v] f.plen.toNat) (fun f => ckWord s.cfg.ck[v] f.payload)
      (fun _ => 0))

/-- NIB (R131). -/
def execNib (j : Byte) (s : State) : Result :=
  .next (s.readFrame (fun f => decide (j.toNat < 2 * f.plen.toNat)) (fun f => zext32 (nib f.payload j.toNat).toNat)
    (fun _ => 0))

/-- NSUM (R133). -/
def execNsum (n : Byte) (s : State) : Result :=
  .next (s.readFrame (fun f => decide (n.toNat ≤ 2 * f.plen.toNat)) (fun f => zext32 (nsum f.payload n.toNat))
    (fun _ => 0))

/-- TEMP (R142). -/
def execTemp (s : State) : Result :=
  .next (s.readFrame (fun f => decide (tempBytes ≤ f.plen.toNat)) (fun f => tempWord f.payload)
    (fun f => tempValueWord f.payload))

/-- The dispatch key of the frame in FR (41_decode.md R126). -/
def FrameReg.key (f : FrameReg) : Key := dispatchKey f.payload (hdrBits f.hdr)

/-- KEY's second data word: `lookup << 24 | mkey` (R126). -/
def keyWord (c : Config) (key : Key) : DataWord :=
  (0 : BitVec 6) ++ lookupCode (lookupResult c key) ++ maskedKey key

/-- KEY (R126). -/
def execKey (s : State) : Result :=
  .next (s.readFrame (fun f => decide (typeCodeBytes ≤ f.plen.toNat)) (fun f => f.key.zeroExtend 32)
    (fun f => keyWord s.cfg f.key))

end Sys2Proof.Machine
end

