-- ==== Sys2Proof/Machine/Framer.lean ====
section
/-! DEFINITION. The buffer and framing commands PUSH, FRAME, CLEAR, SETACK and STAT (spec 40_framer.md
R80 to R93). -/

namespace Sys2Proof.Machine

open Sys2Proof

/-! ### The framing unit -/

/-- The class of a header byte, the first test that matches (30_encoding.md R63). -/
def classify (c : Config) (ack : Bool) (hdr : Byte) : HeaderClass :=
  if ack = true ∧ hdr = c.versionSentinel then .version
  else if ack = true ∧ hdr ∈ c.modeSentinels then .mode
  else if hdrBits hdr = 0 then .empty
  else .data

/-- The event record of a frame (40_framer.md R89, 30_encoding.md R70). -/
def mkEvent (hdr : Byte) (n : Nat) (p : List Byte) (dr : DecodeResult) : Event :=
  { dr with
    hdr := hdr, mflag := hdrM hdr, bits := hdrBits hdr, consumed := BitVec.ofNat 16 n,
    plen := BitVec.ofNat 16 p.length, payload := p }

/-- The frame register's contents after an event (R88). -/
def mkFrameReg (hdr : Byte) (et : EType) (p : List Byte) : FrameReg :=
  { hdr := hdr, etype := et, payload := p, plen := BitVec.ofNat 16 p.length }

/-- The end of FRAME when it has a frame of `n` bytes: drop them from BUF, overwrite FR, return the
event (R81, R88, R89). -/
def State.deliver (s : State) (hdr : Byte) (n : Nat) (p : List Byte) (dr : DecodeResult) : State :=
  ((s.bufDrop n).withFr (some (mkFrameReg hdr dr.etype p))).respondEvent (mkEvent hdr n p dr)

/-- FRAME on a DATA header: INCOMPLETE, or one frame decoded (R86, R87). -/
def State.frameData (s : State) (hdr : Byte) (rest : List Byte) : State :=
  if s.buf.length < 1 + payloadBytes (hdrBits hdr).toNat then
    s.respond .incomplete (zext32 (1 + payloadBytes (hdrBits hdr).toNat)) (zext32 s.buf.length)
  else
    s.deliver hdr (1 + payloadBytes (hdrBits hdr).toNat) (rest.take (payloadBytes (hdrBits hdr).toNat))
      (decodeFrame s.cfg (hdrBits hdr) (rest.take (payloadBytes (hdrBits hdr).toNat)))

/-- FRAME with the header byte `hdr` and the bytes `rest` behind it (R83 to R87). -/
def State.frameHeader (s : State) (hdr : Byte) (rest : List Byte) : State :=
  match classify s.cfg s.ackPending hdr with
  | .version => s.deliver hdr s.buf.length rest (noDecode .version)
  | .mode => s.deliver hdr 1 [] (noDecode .mode)
  | .empty => s.deliver hdr 1 [] (noDecode .empty)
  | .data => s.frameData hdr rest

/-- FRAME (R81). -/
def State.frameStep (s : State) : State :=
  match s.buf with
  | [] => s.respond .noMsg 0 0
  | hdr :: rest => s.frameHeader hdr rest

/-- The sign of the temperature an event reports: the bit R141 reads, which the event carries in its
payload (42_nibble_checksum.md R143; log entry 8). -/
def Event.tempNeg (e : Event) : Option Bool :=
  match e.method with
  | some m => if e.dstat = .ok ∧ isTempMethod m = true then some (Machine.tempNeg e.payload) else none
  | none => none

/-- A hexadecimal digit, lower case. -/
def hexDigit (n : Nibble) : Char := ("0123456789abcdef".toList).getD n.toNat '0'

/-- The device identifier a host builds from an event: the lower-cased part name, a dot, `addr` as two
hexadecimal digits (41_decode.md R122). It is a view of the event; the block does not build it. -/
def Event.deviceId (c : Config) (e : Event) : Option (List Char) :=
  match e.part, e.addr with
  | some p, some a =>
    c.partNames[p]?.map fun name =>
      name.toList.map Char.toLower ++ ['.', hexDigit (a.extractLsb' 4 4), hexDigit (a.extractLsb' 0 4)]
  | _, _ => none

/-! ### The commands -/

/-- PUSH (R80). -/
def execPush (b : Byte) (s : State) : Result :=
  if s.full then .next (s.respond .full (zext32 s.buf.length) 0)
  else .next ((s.bufAppend b).respond .ok (zext32 (s.buf.length + 1)) 0)

/-- FRAME (R81). -/
def execFrame (s : State) : Result := .next s.frameStep

/-- CLEAR (R90). -/
def execClear (s : State) : Result := .next (s.bufClear.respond .ok (zext32 s.buf.length) 0)

/-- SETACK (R92). -/
def execSetack (v : BitVec 1) (s : State) : Result :=
  .next ((s.withAck (v.getLsbD 0)).respond .ok (zext32 v.toNat) 0)

/-- STAT (R93). -/
def execStat (s : State) : Result := .next (s.respond .ok s.status 0)

end Sys2Proof.Machine
end

