-- ==== Sys2Proof/Machine/Dispatch.lean ====
section
/-! DEFINITION. The meaning of every command, one arm per row of spec/opcode_table.json. -/

namespace Sys2Proof.Machine

open Sys2Proof

def exec (i : Instr) (s : State) : Host.Outcome State Fault Refusal :=
  match i with
  | .push b => Sys2Proof.Machine.execPush b s
  | .frame => Sys2Proof.Machine.execFrame s
  | .clear => Sys2Proof.Machine.execClear s
  | .setack v => Sys2Proof.Machine.execSetack v s
  | .cksum k => Sys2Proof.Machine.execCksum k s
  | .nib j => Sys2Proof.Machine.execNib j s
  | .nsum n => Sys2Proof.Machine.execNsum n s
  | .temp => Sys2Proof.Machine.execTemp s
  | .key => Sys2Proof.Machine.execKey s
  | .stat => Sys2Proof.Machine.execStat s

end Sys2Proof.Machine
end

