-- ==== Sys2Proof/Machine/Run.lean ====
section
/-! DEFINITION. What the block does with one host input: run a command word or answer EILL (spec
30_encoding.md R65 to R67, 60_exceptions.md R164), or reset (70_reset_and_hazards.md R180). -/

namespace Sys2Proof.Machine

open Sys2Proof

/-- One command word: the decoded command's meaning, or EILL for an illegal word (R67, R164). -/
def runWord (w : CmdWord) (s : State) : Result :=
  match decode w with
  | .ok i => exec i s
  | .error _ => .next (s.raise .eIll)

/-- One host input. -/
def runInput (x : HostInput) (s : State) : Result :=
  match x with
  | .word w => runWord w s
  | .reset => .next s.applyReset

/-- The block with an accepted configuration: the next input, or nothing to do (60_exceptions.md R174,
log entry 3). -/
def runNext (s : State) : Result :=
  match s.takeInput with
  | none => .next s
  | some (x, s') => runInput x s'

end Sys2Proof.Machine
end

