-- ==== Sys2Proof/Machine/Step.lean ====
section
/-! DEFINITION. One step of the machine (spec 00_scope.md R7, R9). -/

namespace Sys2Proof.Machine

open Sys2Proof

/-- One step: a refused configuration has no machine (R9, log entry 14); otherwise the host's next input. -/
def step (s : State) : Host.Outcome State Fault Refusal :=
  if ConfigOk s.cfg then runNext s else .refused .configRefused

/-- The word `w` is the next the host issues, ahead of whatever it was to issue (log entry 2). -/
def State.withFetchWord (s : State) (nbits w : Nat) : State :=
  s.issueNext (.word (BitVec.ofNat 16 (w % 2 ^ nbits)))

end Sys2Proof.Machine
end

