-- ==== Sys2Proof/Machine/Assembler.lean ====
section
/-! DEFINITION. The assembler syntax and the pseudo-instructions (spec 30_encoding.md R71, R72). The
block never sees either; a host uses them to make command words. Points the syntax leaves open (blanks,
letter case of hexadecimal digits): log entry 17. -/

namespace Sys2Proof.Machine

open Sys2Proof

/-! ### Pseudo-instructions (R72) -/

/-- `PUSHS b0, ..., bn`. -/
def pushs (bytes : List Byte) : List Instr := bytes.map Instr.push

/-- `ACKON`. -/
def ackOn : List Instr := [.setack 1]

/-- `ACKOFF`. -/
def ackOff : List Instr := [.setack 0]

/-! ### Numbers: decimal, or `0x` and hexadecimal digits (R71) -/

def isBlank (c : Char) : Bool := c == ' ' || c == '\t'

/-- The value of a digit in a base up to 16. -/
def digitValue? (base : Nat) (c : Char) : Option Nat :=
  let v := if '0' ≤ c ∧ c ≤ '9' then c.toNat - '0'.toNat
    else if 'a' ≤ c ∧ c ≤ 'f' then c.toNat - 'a'.toNat + 10
    else if 'A' ≤ c ∧ c ≤ 'F' then c.toNat - 'A'.toNat + 10
    else base
  if v < base then some v else none

/-- Digits after those that made `acc`. -/
def digits? (base : Nat) (acc : Nat) : List Char → Option Nat
  | [] => some acc
  | c :: cs =>
    match digitValue? base c with
    | some v => digits? base (acc * base + v) cs
    | none => none

def number? : List Char → Option Nat
  | [] => none
  | ['0', 'x'] => none
  | '0' :: 'x' :: ds => digits? 16 0 ds
  | ds => digits? 10 0 ds

/-! ### Lines -/

/-- The text without its comment (R71). -/
def stripComment (l : List Char) : List Char := l.takeWhile (· != ';')

/-- The text without blanks at either end. -/
def trimBlanks (l : List Char) : List Char := ((l.dropWhile isBlank).reverse.dropWhile isBlank).reverse

/-- The pieces between commas. -/
def splitCommas : List Char → List (List Char)
  | [] => [[]]
  | c :: cs =>
    match splitCommas cs with
    | [] => [[c]]
    | t :: ts => if c == ',' then [] :: t :: ts else (c :: t) :: ts

/-- The operands of a line: none, or numbers between commas. -/
def operands? (l : List Char) : Option (List Nat) :=
  match trimBlanks l with
  | [] => some []
  | t => (splitCommas t).mapM fun piece => number? (trimBlanks piece)

/-- A command with one operand in the range `lo` to `hi` (R66). -/
def oneOperand (lo hi : Nat) (f : Nat → Instr) (ops : List Nat) : Option (List Instr) :=
  match ops with
  | [n] => if lo ≤ n ∧ n ≤ hi then some [f n] else none
  | _ => none

/-- A command without an operand (R66). -/
def noOperand (i : List Instr) (ops : List Nat) : Option (List Instr) :=
  match ops with
  | [] => some i
  | _ => none

/-- `PUSHS`: one byte or more (R72). -/
def pushsOperands (ops : List Nat) : Option (List Instr) :=
  if ops ≠ [] ∧ ∀ n ∈ ops, n ≤ 255 then some (pushs (ops.map (BitVec.ofNat 8))) else none

/-- The commands a mnemonic and its operands stand for (R66, R71, R72). -/
def asmCommand (mnemonic : List Char) (ops : List Nat) : Option (List Instr) :=
  if mnemonic = "PUSH".toList then oneOperand 0 255 (fun n => .push (BitVec.ofNat 8 n)) ops
  else if mnemonic = "FRAME".toList then noOperand [.frame] ops
  else if mnemonic = "CLEAR".toList then noOperand [.clear] ops
  else if mnemonic = "SETACK".toList then oneOperand 0 1 (fun n => .setack (BitVec.ofNat 1 n)) ops
  else if mnemonic = "CKSUM".toList then oneOperand 1 8 (fun n => .cksum (BitVec.ofNat 8 n)) ops
  else if mnemonic = "NIB".toList then oneOperand 0 255 (fun n => .nib (BitVec.ofNat 8 n)) ops
  else if mnemonic = "NSUM".toList then oneOperand 0 255 (fun n => .nsum (BitVec.ofNat 8 n)) ops
  else if mnemonic = "TEMP".toList then noOperand [.temp] ops
  else if mnemonic = "KEY".toList then noOperand [.key] ops
  else if mnemonic = "STAT".toList then noOperand [.stat] ops
  else if mnemonic = "PUSHS".toList then pushsOperands ops
  else if mnemonic = "ACKON".toList then noOperand ackOn ops
  else if mnemonic = "ACKOFF".toList then noOperand ackOff ops
  else none

/-- The commands of one line; a line of blanks or comment only has none (R71). -/
def asmLine (line : List Char) : Option (List Instr) :=
  match trimBlanks (stripComment line) with
  | [] => some []
  | t =>
    match operands? (t.dropWhile fun c => !isBlank c) with
    | some ops => asmCommand (t.takeWhile fun c => !isBlank c) ops
    | none => none

/-- The words of one line (R71: a command assembles to `(OP << 12) | OPD`). -/
def asmWords (line : List Char) : Option (List CmdWord) := (asmLine line).map (List.map encode)

end Sys2Proof.Machine
end

