-- ==== Sys2Proof/Safety.lean ====
section
/-! DEFINITION. The terms claims are stated in: what a response, an event and a frame register look like
when they are as the spec says (10_state.md R21, R24; 30_encoding.md R68, R70), the invariant of the
state, runs of commands, the bytes that pass through BUF (20_memory.md R41), and the host's session view
(10_state.md R31). -/

namespace Sys2Proof.Machine

open Sys2Proof

/-! ### Invariants -/

/-- FR's class agrees with its header and payload (30_encoding.md R62, R63; 40_framer.md R81, R88). -/
def frameClassOk (c : Config) (f : FrameReg) : Bool :=
  match f.etype with
  | .version => decide (f.hdr = c.versionSentinel)
  | .mode => decide (f.hdr ∈ c.modeSentinels ∧ f.payload = [])
  | .empty => decide (hdrBits f.hdr = 0 ∧ f.payload = [])
  | .unknown => dataClassOk c f
  | .family => dataClassOk c f
where
  /-- A DATA frame: its payload's length follows from BITS, and etype is what decoding it gives. -/
  dataClassOk (c : Config) (f : FrameReg) : Bool :=
    decide (hdrBits f.hdr ≠ 0 ∧ f.payload.length = payloadBytes (hdrBits f.hdr).toNat
      ∧ (decodeFrame c (hdrBits f.hdr) f.payload).etype = f.etype)

/-- FR holds a frame the block could have framed (10_state.md R24). -/
abbrev FrameOk (c : Config) (f : FrameReg) : Prop :=
  f.plen.toNat = f.payload.length ∧ f.payload.length < c.bufCap ∧ frameClassOk c f = true

/-- The invariant of the block's state: an accepted configuration, a buffer within BUF_CAP (10_state.md
R21), a frame register that holds nothing or a frame. -/
abbrev State.Inv (s : State) : Prop :=
  ConfigOk s.cfg ∧ s.buf.length ≤ s.cfg.bufCap ∧ ∀ f ∈ s.fr.toList, FrameOk s.cfg f

/-- The event record is as 30_encoding.md R70 says: the header's fields, the lengths, which decode
fields are present, and no measurement unless dstat is OK. -/
abbrev EventOk (e : Event) : Prop :=
  (e.mflag = hdrM e.hdr ∧ e.bits = hdrBits e.hdr)
    ∧ (e.plen.toNat = e.payload.length ∧ e.consumed.toNat = 1 + e.payload.length)
    ∧ (e.etype = .family ↔ e.dstat = .ok)
    ∧ (e.dstat = .none ↔ (e.etype = .empty ∨ e.etype = .version ∨ e.etype = .mode))
    ∧ (e.lookup.isSome = decide (2 ≤ (dstatCode e.dstat).toNat) ∧ e.key.isSome = e.lookup.isSome)
    ∧ (e.part.isSome = decide (3 ≤ (dstatCode e.dstat).toNat) ∧ e.cksel.isSome = e.part.isSome)
    ∧ (e.method.isSome = decide (4 ≤ (dstatCode e.dstat).toNat) ∧ e.ckOk.isSome = e.method.isSome)
    ∧ e.addr = (if e.dstat = .ok then some (byteAt e.payload addrByte) else none)
    ∧ (e.dstat ≠ .ok → e.meas = [])

/-- The response record is as 30_encoding.md R68 says: an error carries no data, an event comes only
with status OK. -/
abbrev ResponseOk (r : Response) : Prop :=
  ((r.st = .eIll ∨ r.st = .eRange) → r.d0 = 0 ∧ r.d1 = 0 ∧ r.ev = none)
    ∧ (r.ev ≠ none → r.st = .ok) ∧ ∀ e ∈ r.ev.toList, EventOk e

/-- Every response returned so far is as R68 and R70 say. -/
abbrev State.OutboxOk (s : State) : Prop := ∀ r ∈ s.outbox, ResponseOk r

/-! ### Safe runs -/

/-- A result that is a next state. -/
abbrev Answers (r : Result) : Prop := ∃ t, r = .next t

/-- Commands executed one after another, stopping where one does not answer. -/
def execAll : List Instr → State → Result
  | [], s => .next s
  | i :: is, s =>
    match exec i s with
    | .next t => execAll is t
    | .fault r => .fault r
    | .refused r => .refused r

/-! ### States after a response, written out (30_encoding.md R68; 60_exceptions.md R163) -/

/-- The state after a response without an event; nothing else changes. -/
abbrev State.gave (s : State) (st : Status) (d0 d1 : DataWord) : State :=
  { s with outbox := s.outbox ++ [⟨st, d0, d1, none⟩] }

/-- The state after a response with an event. -/
abbrev State.gaveEvent (s : State) (e : Event) : State :=
  { s with outbox := s.outbox ++ [⟨.ok, 0, 0, some e⟩] }

/-- The state after EILL: its sticky bit, its response, nothing else. -/
abbrev State.gaveEill (s : State) : State := { s.gave .eIll 0 0 with errIll := true }

/-- The state after ERANGE: its sticky bit, its response, nothing else. -/
abbrev State.gaveErange (s : State) : State := { s.gave .eRange 0 0 with errRange := true }

/-- A header that FRAME takes as DATA (30_encoding.md R63). -/
abbrev DataHeader (s : State) (hdr : Byte) : Prop :=
  ¬(s.ackPending = true ∧ hdr = s.cfg.versionSentinel) ∧ ¬(s.ackPending = true ∧ hdr ∈ s.cfg.modeSentinels)
    ∧ hdr.toNat % 128 ≠ 0

/-- A command word is illegal by 30_encoding.md R67, in numbers: OP, RSV and OPD are the word's digits. -/
abbrev IllegalWord (w : CmdWord) : Prop :=
  (w.toNat / 4096 = 0 ∨ 11 ≤ w.toNat / 4096)
    ∨ w.toNat / 256 % 16 ≠ 0
    ∨ (w.toNat / 4096 ∈ [2, 3, 8, 9, 10] ∧ w.toNat % 256 ≠ 0)
    ∨ (w.toNat / 4096 = 4 ∧ w.toNat % 256 / 2 ≠ 0)
    ∨ (w.toNat / 4096 = 5 ∧ ¬(1 ≤ w.toNat % 256 ∧ w.toNat % 256 ≤ 8))

/-! ### The byte stream through BUF (20_memory.md R41) -/

/-- The bytes of an event's frame: the header and the payload. -/
def Event.frameBytes (e : Event) : List Byte := e.hdr :: e.payload

/-- The bytes of the frames some responses report, in order. -/
def framedBytes (rs : List Response) : List Byte :=
  rs.flatMap fun r => r.ev.toList.flatMap Event.frameBytes

/-- The byte a command pushes, if it is PUSH. -/
def pushedBy : Instr → List Byte
  | .push b => [b]
  | .frame => []
  | .clear => []
  | .setack _ => []
  | .cksum _ => []
  | .nib _ => []
  | .nsum _ => []
  | .temp => []
  | .key => []
  | .stat => []

/-- The bytes some commands push, in order. -/
def pushedBytes (is : List Instr) : List Byte := is.flatMap pushedBy

/-! ### The host's session view (10_state.md R31): derived, adds no state. A history is the commands
issued and the status each was answered with, the latest first (log entry 18). -/

/-- The session is Idle exactly when BUF is empty (R31). -/
def sessionIdle (s : State) : Bool := s.buf.isEmpty

/-- The status of the latest FRAME. -/
def lastFrameStatus : List (Instr × Status) → Option Status
  | [] => none
  | (.frame, st) :: _ => some st
  | _ :: h => lastFrameStatus h

/-- No FRAME has run since the last PUSH. -/
def noFrameSincePush : List (Instr × Status) → Bool
  | [] => true
  | (.frame, _) :: _ => false
  | (.push _, _) :: _ => true
  | _ :: h => noFrameSincePush h

/-- The session is Buffering (R31). -/
def sessionBuffering (h : List (Instr × Status)) (s : State) : Bool :=
  !s.buf.isEmpty && (lastFrameStatus h == some .incomplete || noFrameSincePush h)

/-- The moment FRAME returns status OK (R31). -/
def sessionFramed (h : List (Instr × Status)) : Bool := h.head? == some (.frame, .ok)

end Sys2Proof.Machine
end

