-- ==== Sys2Proof/Certificates/Slice0/Obligations.lean ====
section
/-! DEFINITION. The statements for the provers, one def each; OBLIGATIONS.json gives each its rule of the
spec. States are written out, so that a statement of a result is a statement of what stays as well. -/

open Sys2Proof Sys2Proof.Machine

/-! ### Encoding -/

/-- R66, R71: every legal command is read back from its word. -/
def Obligations.DecodeOfEncode : Prop :=
  ∀ i : Instr, i.wellFormed = true → decode (encode i) = .ok i

/-- R66, R71: every word the decoder accepts is the word of the command it gives, a legal one. -/
def Obligations.EncodeOfDecode : Prop :=
  ∀ (w : CmdWord) (i : Instr), decode w = .ok i → i.wellFormed = true ∧ encode i = w

/-- R67, R164: a word is refused exactly when it is illegal; then the step is EILL and nothing else. -/
def Obligations.IllegalWordRaisesEill : Prop :=
  ∀ (s : State) (w : CmdWord) (rest : List HostInput), ConfigOk s.cfg → s.inbox = .word w :: rest →
    (IllegalWord w → step s = .next ({ s with inbox := rest } : State).gaveEill)
      ∧ (¬IllegalWord w → ∃ i, decode w = .ok i ∧ step s = exec i { s with inbox := rest })

/-- R66, R71: words written out from the opcode map decode to their commands. -/
def Obligations.OpcodeMapWordsDecode : Prop :=
  decode 0x10AB = .ok (.push 0xAB) ∧ decode 0x2000 = .ok .frame ∧ decode 0x3000 = .ok .clear
    ∧ decode 0x4001 = .ok (.setack 1) ∧ decode 0x5002 = .ok (.cksum 2) ∧ decode 0x600A = .ok (.nib 10)
    ∧ decode 0x7010 = .ok (.nsum 16) ∧ decode 0x8000 = .ok .temp ∧ decode 0x9000 = .ok .key
    ∧ decode 0xA000 = .ok .stat

/-! ### The step -/

/-- R65, R7: the step runs the command the host's next word decodes to, on the state without that word. -/
def Obligations.StepRunsDecodedCommand : Prop :=
  ∀ (s : State) (w : CmdWord) (rest : List HostInput) (i : Instr), ConfigOk s.cfg →
    s.inbox = .word w :: rest → decode w = .ok i → step s = exec i { s with inbox := rest }

/-- The model's choice of where a word waits (log entry 2): the placed word is the next one run. -/
def Obligations.PlacedWordRunsNext : Prop :=
  ∀ (s : State) (i : Instr), ConfigOk s.cfg → i.wellFormed = true →
    step (s.withFetchWord 16 (encode i).toNat) = exec i s

/-- R174: with no input from the host nothing changes (the idle step is log entry 3's). -/
def Obligations.IdleStepChangesNothing : Prop :=
  ∀ s : State, ConfigOk s.cfg → s.inbox = [] → step s = .next s

/-- R9: a refused configuration has no machine, an accepted one never stops and never changes. -/
def Obligations.OnlyABadConfigurationStops : Prop :=
  ∀ s : State, (¬ConfigOk s.cfg → step s = .refused .configRefused)
    ∧ (ConfigOk s.cfg → ∃ t, step s = .next t ∧ t.cfg = s.cfg)

/-- R65, R68: every command word gets exactly one response, of the record's form, and is taken. -/
def Obligations.EveryWordGetsOneResponse : Prop :=
  ∀ (s : State) (w : CmdWord) (rest : List HostInput), s.Inv → s.inbox = .word w :: rest →
    ∃ t r, step s = .next t ∧ t.inbox = rest ∧ t.outbox = s.outbox ++ [r] ∧ ResponseOk r

/-- The reset input, and the state after reset, put every element R33 lists at its reset value and keep
the configuration. The clauses about `inbox` and `outbox` are not R33's: that the reset input leaves them
alone, and that both are empty in `State.resetOf`, is the model's choice (DESIGN CHOICE, log entry 2). -/
def Obligations.ResetValues : Prop :=
  (∀ (s : State) (rest : List HostInput), ConfigOk s.cfg → s.inbox = .reset :: rest →
      step s = .next { cfg := s.cfg, buf := [], ackPending := false, fr := none, errIll := false,
                       errRange := false, inbox := rest, outbox := s.outbox })
    ∧ ∀ c, State.resetOf c = { cfg := c, buf := [], ackPending := false, fr := none, errIll := false,
                               errRange := false, inbox := [], outbox := [] }

/-- R181: what the commands answer just after reset, under every accepted configuration. -/
def Obligations.FirstCommandAfterReset : Prop :=
  ∀ (c : Config) (s : State), ConfigOk c → s = State.resetOf c →
    exec .stat s = .next (s.gave .ok 0 0)
      ∧ exec .frame s = .next (s.gave .noMsg 0 0)
      ∧ (∀ j, exec (.nib j) s = .next s.gaveErange)
      ∧ (∀ n, exec (.nsum n) s = .next s.gaveErange)
      ∧ (∀ k : Byte, 1 ≤ k.toNat → k.toNat ≤ 8 → exec (.cksum k) s = .next s.gaveErange)
      ∧ exec .temp s = .next s.gaveErange
      ∧ exec .key s = .next s.gaveErange
      ∧ ∀ b, exec (.push b) s = .next ({ s with buf := [b] }.gave .ok 1 0)

/-! ### PUSH, CLEAR, SETACK, STAT -/

/-- R80: PUSH stores the byte last, or answers FULL and stores nothing. -/
def Obligations.PushStoresOrIsFull : Prop :=
  ∀ (s : State) (b : Byte), (encode (.push b)).toNat = 0x1000 + b.toNat
    ∧ (s.buf.length = s.cfg.bufCap →
      exec (.push b) s = .next (s.gave .full (BitVec.ofNat 32 s.buf.length) 0))
    ∧ (s.buf.length ≠ s.cfg.bufCap →
      exec (.push b) s
        = .next ({ s with buf := s.buf ++ [b] }.gave .ok (BitVec.ofNat 32 (s.buf.length + 1)) 0))

/-- R90: CLEAR empties BUF, answers how many bytes it held, and changes nothing else. -/
def Obligations.ClearEmptiesBuffer : Prop :=
  ∀ s : State, encode .clear = 0x3000
    ∧ exec .clear s = .next ({ s with buf := [] }.gave .ok (BitVec.ofNat 32 s.buf.length) 0)

/-- R92: SETACK writes ACK_PENDING and changes nothing else; with OPD[7:1] not 0 its word is EILL. -/
def Obligations.SetackWritesAckPending : Prop :=
  ∀ s : State, encode (.setack 0) = 0x4000 ∧ encode (.setack 1) = 0x4001
    ∧ exec (.setack 1) s = .next ({ s with ackPending := true }.gave .ok 1 0)
    ∧ exec (.setack 0) s = .next ({ s with ackPending := false }.gave .ok 0 0)
    ∧ ∀ w : CmdWord, w.toNat / 256 = 0x40 → 2 ≤ w.toNat % 256 → runWord w s = .next s.gaveEill

/-- R26, R93: STAT answers the STATUS word, field by field, and changes nothing else. -/
def Obligations.StatReadsStatusWord : Prop :=
  ∀ s : State, encode .stat = 0xA000 ∧ ∃ w : DataWord, exec .stat s = .next (s.gave .ok w 0)
    ∧ w.toNat = s.errRange.toNat * 2 ^ 20 + s.errIll.toNat * 2 ^ 19 + s.fr.isSome.toNat * 2 ^ 18
        + s.ackPending.toNat * 2 ^ 17 + (if s.buf.length = s.cfg.bufCap then 2 ^ 16 else 0)
        + s.buf.length % 2 ^ 16

/-! ### FRAME -/

/-- R82: FRAME on an empty buffer answers NOMSG and changes nothing. -/
def Obligations.FrameOnEmptyBuffer : Prop :=
  ∀ s : State, s.buf = [] → exec .frame s = .next (s.gave .noMsg 0 0)

/-- R83: with ACK_PENDING, the version sentinel takes the whole buffer, undecoded. -/
def Obligations.FrameVersionTakesWholeBuffer : Prop :=
  ∀ (s : State) (hdr : Byte) (rest : List Byte), s.buf = hdr :: rest → s.ackPending = true →
    hdr = s.cfg.versionSentinel →
    ∃ e : Event, exec .frame s
        = .next ({ s with buf := [], fr := some ⟨hdr, .version, rest, BitVec.ofNat 16 rest.length⟩ }.gaveEvent e)
      ∧ e.toDecodeResult = ⟨.version, .none, none, none, none, none, none, none, none, []⟩
      ∧ e.hdr = hdr ∧ e.mflag = decide (128 ≤ hdr.toNat) ∧ e.bits.toNat = hdr.toNat % 128
      ∧ e.consumed = BitVec.ofNat 16 s.buf.length ∧ e.plen = BitVec.ofNat 16 rest.length ∧ e.payload = rest

/-- R84: with ACK_PENDING, a mode sentinel of an accepted configuration is a frame of one byte, undecoded. -/
def Obligations.FrameModeTakesHeaderOnly : Prop :=
  ∀ (s : State) (hdr : Byte) (rest : List Byte), ConfigOk s.cfg → s.buf = hdr :: rest → s.ackPending = true →
    hdr ∈ s.cfg.modeSentinels →
    ∃ e : Event, exec .frame s = .next ({ s with buf := rest, fr := some ⟨hdr, .mode, [], 0⟩ }.gaveEvent e)
      ∧ e.toDecodeResult = ⟨.mode, .none, none, none, none, none, none, none, none, []⟩
      ∧ e.hdr = hdr ∧ e.mflag = decide (128 ≤ hdr.toNat) ∧ e.bits.toNat = hdr.toNat % 128
      ∧ e.consumed = 1 ∧ e.plen = 0 ∧ e.payload = []

/-- R85, R96: under an accepted configuration a header with BITS = 0 is an EMPTY frame of one byte,
whatever ACK_PENDING is. -/
def Obligations.FrameEmptyHeader : Prop :=
  ∀ (s : State) (hdr : Byte) (rest : List Byte), ConfigOk s.cfg → s.buf = hdr :: rest → hdr.toNat % 128 = 0 →
    ∃ e : Event, exec .frame s = .next ({ s with buf := rest, fr := some ⟨hdr, .empty, [], 0⟩ }.gaveEvent e)
      ∧ e.toDecodeResult = ⟨.empty, .none, none, none, none, none, none, none, none, []⟩
      ∧ e.hdr = hdr ∧ e.mflag = decide (128 ≤ hdr.toNat) ∧ e.bits = 0
      ∧ e.consumed = 1 ∧ e.plen = 0 ∧ e.payload = []

/-- R86, R94: a DATA header with too few bytes is INCOMPLETE and changes nothing. -/
def Obligations.FrameIncompleteLeavesState : Prop :=
  ∀ (s : State) (hdr : Byte) (rest : List Byte), s.buf = hdr :: rest → DataHeader s hdr →
    s.buf.length < 1 + (hdr.toNat % 128 + 7) / 8 →
    exec .frame s = .next
      (s.gave .incomplete (BitVec.ofNat 32 (1 + (hdr.toNat % 128 + 7) / 8)) (BitVec.ofNat 32 s.buf.length))

/-- R87: a DATA header with enough bytes removes exactly the frame and decodes its payload. -/
def Obligations.FrameDataRemovesOneFrame : Prop :=
  ∀ (s : State) (hdr : Byte) (p rest : List Byte), s.buf = hdr :: (p ++ rest) → DataHeader s hdr →
    p.length = (hdr.toNat % 128 + 7) / 8 →
    ∃ e : Event, exec .frame s
        = .next ({ s with buf := rest, fr := some ⟨hdr, e.etype, p, BitVec.ofNat 16 p.length⟩ }.gaveEvent e)
      ∧ e.toDecodeResult = decodeFrame s.cfg (BitVec.ofNat 7 hdr.toNat) p
      ∧ e.hdr = hdr ∧ e.mflag = decide (128 ≤ hdr.toNat) ∧ e.bits.toNat = hdr.toNat % 128
      ∧ e.consumed.toNat = 1 + p.length ∧ e.plen.toNat = p.length ∧ e.payload = p

/-- R88: FRAME overwrites FR with the event's frame, or answers NOMSG or INCOMPLETE and changes nothing. -/
def Obligations.FrameRegisterHoldsTheEvent : Prop :=
  ∀ s : State,
    (∃ (st : Status) (d0 d1 : DataWord), (st = .noMsg ∨ st = .incomplete) ∧ exec .frame s = .next (s.gave st d0 d1))
      ∨ ∃ (e : Event) (b : List Byte), exec .frame s
          = .next ({ s with buf := b, fr := some ⟨e.hdr, e.etype, e.payload, e.plen⟩ }.gaveEvent e)
        ∧ e.plen = BitVec.ofNat 16 e.payload.length

/-- R41, R46: a frame is a run of bytes at the front of BUF, and the bytes behind it stay in order. -/
def Obligations.FrameSplitsFrontOfBuffer : Prop :=
  ∀ (s t : State) (e : Event), exec .frame s = .next t → t.outbox = s.outbox ++ [⟨.ok, 0, 0, some e⟩] →
    e.frameBytes ++ t.buf = s.buf ∧ e.consumed = BitVec.ofNat 16 e.frameBytes.length

/-- R95: a DATA event consumes 1 + ceil(bits/8) bytes. -/
def Obligations.DataEventConsumedCount : Prop :=
  ∀ (s t : State) (hdr : Byte) (rest : List Byte) (e : Event), s.buf = hdr :: rest → exec .frame s = .next t →
    t.outbox = s.outbox ++ [⟨.ok, 0, 0, some e⟩] → (e.etype = .unknown ∨ e.etype = .family) →
    e.consumed.toNat = 1 + (hdr.toNat % 128 + 7) / 8 ∧ t.buf = s.buf.drop (1 + (hdr.toNat % 128 + 7) / 8)

/-- R97: a full buffer is always relieved by one FRAME. -/
def Obligations.FullBufferMakesProgress : Prop :=
  ∀ s : State, ConfigOk s.cfg → s.buf.length = s.cfg.bufCap →
    ∃ t e, exec .frame s = .next t ∧ t.outbox = s.outbox ++ [⟨.ok, 0, 0, some e⟩]
      ∧ 1 ≤ e.consumed.toNat ∧ t.buf.length + e.consumed.toNat = s.buf.length

/-- R98: FRAME's response and the state it leaves follow from BUF, ACK_PENDING and the configuration. -/
def Obligations.FrameIsDeterminedByItsInputs : Prop :=
  ∀ (c : Config) (b : List Byte) (ack : Bool), ∃ (r : Response) (b' : List Byte) (f : Option FrameReg),
    ∀ s : State, s.cfg = c → s.buf = b → s.ackPending = ack →
      exec .frame s = .next { s with buf := b', fr := f.or s.fr, outbox := s.outbox ++ [r] }

/-- R60: without ACK_PENDING the M flag changes nothing but the reported header and M flag. -/
def Obligations.MasterFlagDoesNotFrame : Prop :=
  ∀ (s : State) (hdr hdr' : Byte) (rest : List Byte), s.ackPending = false → s.buf = hdr :: rest →
    hdr'.toNat % 128 = hdr.toNat % 128 →
    ∃ t t' r r', exec .frame s = .next t ∧ exec .frame { s with buf := hdr' :: rest } = .next t'
      ∧ t.outbox = s.outbox ++ [r] ∧ t'.outbox = s.outbox ++ [r']
      ∧ r'.st = r.st ∧ r'.d0 = r.d0 ∧ r'.d1 = r.d1
      ∧ r'.ev.map (fun e => (e.toDecodeResult, e.bits, e.consumed, e.plen, e.payload))
          = r.ev.map (fun e => (e.toDecodeResult, e.bits, e.consumed, e.plen, e.payload))
      ∧ (∀ e ∈ r'.ev.toList, e.hdr = hdr' ∧ e.mflag = decide (128 ≤ hdr'.toNat))
      ∧ (r.st = .ok → t'.buf = t.buf)

/-- R64: while ACK_PENDING = 0 the sentinels have no effect on FRAME. -/
def Obligations.SentinelsMatterOnlyWithAck : Prop :=
  ∀ (s : State) (v : Byte) (ms : List Byte) (t : State), s.ackPending = false → exec .frame s = .next t →
    exec .frame { s with cfg := { s.cfg with versionSentinel := v, modeSentinels := ms } }
      = .next { t with cfg := { s.cfg with versionSentinel := v, modeSentinels := ms } }

/-- R41: PUSH and FRAME pass the stream through unchanged and in order: the frames reported, then what is
still buffered, are what was buffered, then what was pushed. -/
def Obligations.FramedStreamIsPushedStream : Prop :=
  ∀ (is : List Instr) (s : State), (∀ i ∈ is, i = .frame ∨ ∃ b, i = .push b) →
    s.buf.length + (pushedBytes is).length ≤ s.cfg.bufCap →
    ∃ t rs, execAll is s = .next t ∧ t.outbox = s.outbox ++ rs ∧ rs.length = is.length
      ∧ framedBytes rs ++ t.buf = s.buf ++ pushedBytes is

/-! ### The frame register's readers -/

/-- R130: the high nibble of each byte comes first. -/
def Obligations.NibbleOrder : Prop :=
  ∀ (p : List Byte) (i : Nat) (b : Byte), p[i]? = some b →
    (nib p (2 * i)).toNat = b.toNat / 16 ∧ (nib p (2 * i + 1)).toNat = b.toNat % 16

/-- R132: NSUM is the exact sum of the first n nibbles, at most 15 n. -/
def Obligations.NibbleSum : Prop :=
  ∀ (p : List Byte) (n : Nat), nsum p n = ((List.range n).map fun j => (nib p j).toNat).sum ∧ nsum p n ≤ 15 * n

/-- R131: NIB. -/
def Obligations.NibReadsOneNibble : Prop :=
  ∀ (s : State) (j : Byte), (encode (.nib j)).toNat = 0x6000 + j.toNat
    ∧ (s.fr = none → exec (.nib j) s = .next s.gaveErange)
    ∧ ∀ f, s.fr = some f → exec (.nib j) s =
        if j.toNat < 2 * f.plen.toNat then .next (s.gave .ok (BitVec.ofNat 32 (nib f.payload j.toNat).toNat) 0)
        else .next s.gaveErange

/-- R133: NSUM. -/
def Obligations.NsumSumsNibbles : Prop :=
  ∀ (s : State) (n : Byte), (encode (.nsum n)).toNat = 0x7000 + n.toNat
    ∧ (s.fr = none → exec (.nsum n) s = .next s.gaveErange)
    ∧ ∀ f, s.fr = some f → exec (.nsum n) s =
        if n.toNat ≤ 2 * f.plen.toNat then
          .next (s.gave .ok (BitVec.ofNat 32 ((List.range n.toNat).map fun j => (nib f.payload j).toNat).sum) 0)
        else .next s.gaveErange

/-- R137: CKSUM of variant k = v + 1 answers S, E and their comparison, in numbers, or ERANGE; of no
variant it raises EILL, before any other check. -/
def Obligations.CksumComparesSumWithExpected : Prop :=
  ∀ s : State, (∀ k : Byte, (k.toNat < 1 ∨ 8 < k.toNat) → exec (.cksum k) s = .next s.gaveEill)
    ∧ ∀ v : CkSel, let x := s.cfg.ck[v]; let k := BitVec.ofNat 8 (v.val + 1)
      (encode (.cksum k)).toNat = 0x5000 + (v.val + 1)
      ∧ (s.fr = none → exec (.cksum k) s = .next s.gaveErange)
      ∧ ∀ f, s.fr = some f →
        (¬max (x.n - 1) (max x.hi x.lo) < 2 * f.plen.toNat → exec (.cksum k) s = .next s.gaveErange)
        ∧ (max (x.n - 1) (max x.hi x.lo) < 2 * f.plen.toNat →
            ∃ d0 : DataWord, exec (.cksum k) s = .next (s.gave .ok d0 0)
              ∧ d0.toNat = ((nib f.payload x.hi).toNat * 16 + (nib f.payload x.lo).toNat) * 65536
                  + (nsum f.payload x.n + 246) % 256 * 256
                  + if (nsum f.payload x.n + 246) % 256
                      = (nib f.payload x.hi).toNat * 16 + (nib f.payload x.lo).toNat then 1 else 0)

/-- R142: TEMP. -/
def Obligations.TempAnswersSignedTenths : Prop :=
  ∀ s : State, encode .temp = 0x8000 ∧ (s.fr = none → exec .temp s = .next s.gaveErange)
    ∧ ∀ f, s.fr = some f →
      (f.plen.toNat < 7 → exec .temp s = .next s.gaveErange)
      ∧ (7 ≤ f.plen.toNat → ∀ b, f.payload[6]? = some b →
          let mag := (nib f.payload 10).toNat * 100 + (nib f.payload 11).toNat * 10 + (nib f.payload 8).toNat
          ∃ d0 : DataWord, d0.toNat = b.toNat / 8 % 2 * 2048 + mag
            ∧ exec .temp s = .next
                (s.gave .ok d0 (BitVec.ofInt 32 (if b.toNat / 8 % 2 = 1 then -(mag : Int) else mag))))

/-- R141, R143: the temperature depends on nibbles 8, 10, 11 and bit 3 of byte 6 only, and is in range. -/
def Obligations.TemperatureReadsFourPlaces : Prop :=
  ∀ p q : List Byte,
    (nib p 8 = nib q 8 → nib p 10 = nib q 10 → nib p 11 = nib q 11 →
      (byteAt p 6).getLsbD 3 = (byteAt q 6).getLsbD 3 → tempValue p = tempValue q ∧ tempWord p = tempWord q)
      ∧ -1665 ≤ tempValue p ∧ tempValue p ≤ 1665

/-- R126: KEY, in numbers. -/
def Obligations.KeyAnswersBothKeys : Prop :=
  ∀ s : State, encode .key = 0x9000 ∧ (s.fr = none → exec .key s = .next s.gaveErange)
    ∧ ∀ f, s.fr = some f →
      (f.plen.toNat < 2 → exec .key s = .next s.gaveErange)
      ∧ (2 ≤ f.plen.toNat → ∀ p0 p1 more, f.payload = p0 :: p1 :: more →
          let key := (p0.toNat * 256 + p1.toNat) * 256 + f.hdr.toNat % 128
          ∃ d1 : DataWord, exec .key s = .next (s.gave .ok (BitVec.ofNat 32 key) d1)
            ∧ d1.toNat = (lookupCode (lookupResult s.cfg (BitVec.ofNat 24 key))).toNat * 2 ^ 24 + key % 2 ^ 20)

/-- R48: STAT and the readers of FR change nothing but the sticky bits, and answer the same twice. -/
def Obligations.ReadersAreIdempotent : Prop :=
  ∀ (s : State) (i : Instr), i ≠ .frame → i ≠ .clear → (∀ b, i ≠ .push b) → (∀ v, i ≠ .setack v) →
    ∃ t r, exec i s = .next t
      ∧ t = { s with errIll := t.errIll, errRange := t.errRange, outbox := s.outbox ++ [r] }
      ∧ ∃ u, exec i t = .next u ∧ u = { t with outbox := t.outbox ++ [r] }

/-! ### Errors -/

/-- R163: an error leaves the state as it was, plus its sticky bit; its response carries no data. -/
def Obligations.ErrorsArePrecise : Prop :=
  ∀ (s t : State) (w : CmdWord) (rest : List HostInput) (r : Response), ConfigOk s.cfg →
    s.inbox = .word w :: rest → step s = .next t → t.outbox = s.outbox ++ [r] →
    (r.st = .eIll → t = ({ s with inbox := rest } : State).gaveEill)
      ∧ (r.st = .eRange → t = ({ s with inbox := rest } : State).gaveErange)

/-- R27: a word sets exactly the sticky bit of the error it is answered with, and clears none; reset
clears both. -/
def Obligations.StickyBitsRecordErrors : Prop :=
  ∀ (s t : State) (rest : List HostInput), ConfigOk s.cfg → step s = .next t →
    (∀ w r, s.inbox = .word w :: rest → t.outbox = s.outbox ++ [r] →
      t.errIll = (s.errIll || decide (r.st = .eIll)) ∧ t.errRange = (s.errRange || decide (r.st = .eRange)))
      ∧ (s.inbox = .reset :: rest → t.errIll = false ∧ t.errRange = false)

/-- R162: PUSH, FRAME, CLEAR, SETACK and STAT raise no error once their word is legal. -/
def Obligations.FramingCommandsRaiseNothing : Prop :=
  ∀ (s : State) (i : Instr), (i = .frame ∨ i = .clear ∨ i = .stat ∨ (∃ b, i = .push b) ∨ ∃ v, i = .setack v) →
    ∃ t r, exec i s = .next t ∧ t.outbox = s.outbox ++ [r] ∧ r.st ≠ .eIll ∧ r.st ≠ .eRange
      ∧ t.errIll = s.errIll ∧ t.errRange = s.errRange

/-- R20: which commands write which element. -/
def Obligations.OnlyNamedCommandsWrite : Prop :=
  ∀ (s t : State) (i : Instr), exec i s = .next t →
    t.cfg = s.cfg ∧ t.inbox = s.inbox
      ∧ (t.buf ≠ s.buf → i = .frame ∨ i = .clear ∨ ∃ b, i = .push b)
      ∧ (t.ackPending ≠ s.ackPending → ∃ v, i = .setack v)
      ∧ (t.fr ≠ s.fr → i = .frame)

/-! ### The decode unit -/

/-- R110, R111, R112: the keys, in numbers. -/
def Obligations.KeysInNumbers : Prop :=
  ∀ (p0 p1 : Byte) (more : List Byte) (bits : BitVec 7),
    (dispatchKey (p0 :: p1 :: more) bits).toNat = (p0.toNat * 256 + p1.toNat) * 256 + bits.toNat
      ∧ ∀ key : Key, (maskedKey key).toNat = key.toNat % 2 ^ 20

/-- R113: under an accepted configuration a row is found at its own key; a masked hit is the row at the
key's low 20 bits, and only where no row has the key itself. -/
def Obligations.LookupTriesExactThenMasked : Prop :=
  ∀ (c : Config) (key : Key), ConfigOk c →
    (∀ e, (key, e) ∈ c.table → lookupEntry c key = some (e, .exact))
      ∧ (∀ e, (∀ e', (key, e') ∉ c.table) → (BitVec.ofNat 24 (key.toNat % 2 ^ 20), e) ∈ c.table →
          lookupEntry c key = some (e, .masked))
      ∧ ((∀ e, (key, e) ∉ c.table) → (∀ e, (BitVec.ofNat 24 (key.toNat % 2 ^ 20), e) ∉ c.table) →
          lookupEntry c key = none)

/-- R116: every read of the decode unit falls inside the payload, for every accepted configuration. -/
def Obligations.DecodeReadsInsidePayload : Prop :=
  ∀ (c : Config) (bits : BitVec 7) (p : List Byte) (e : Entry) (lk : Lookup), ConfigOk c → bits ≠ 0 →
    p.length = (bits.toNat + 7) / 8 → lookupEntry c (dispatchKey p bits) = some (e, lk) →
    3 < p.length ∧ e.part < c.partNames.length
      ∧ (∀ v : CkSel, e.ck = some v → max (c.ck[v].n - 1) (max c.ck[v].hi c.ck[v].lo) < 2 * p.length)
      ∧ (∀ m, e.method = some m → ∃ n, reqBytes? c m = some n ∧ n ≤ p.length)

/-- R117, R118, R119, R120, R121: the five outcomes of the pipeline, each with what it reports. -/
def Obligations.DecodePipelineOutcomes : Prop :=
  ∀ (c : Config) (bits : BitVec 7) (p : List Byte), let d := decodeFrame c bits p; let key := dispatchKey p bits
    (p.length < 2 → d = ⟨.unknown, .short, none, none, none, none, none, none, none, []⟩)
      ∧ (2 ≤ p.length → lookupEntry c key = none →
          d = ⟨.unknown, .miss, some .noEntry, some key, none, none, none, none, none, []⟩)
      ∧ ∀ e lk, 2 ≤ p.length → lookupEntry c key = some (e, lk) →
        (e.method = none →
          d = ⟨.unknown, .unhandled, some lk, some key, some e.part, some (ckCode e.ck), none, none, none, []⟩)
        ∧ ∀ m, e.method = some m →
          (∀ v : CkSel, e.ck = some v → ckPass c.ck[v] p = false →
            d = ⟨.unknown, .ckFail, some lk, some key, some e.part, some (ckCode e.ck), some m, some false, none, []⟩)
          ∧ ((∀ v : CkSel, e.ck = some v → ckPass c.ck[v] p = true) → ∀ a, p[3]? = some a →
            d = ⟨.family, .ok, some lk, some key, some e.part, some (ckCode e.ck), some m, some true, some a,
                 extract c m p e.part⟩)

/-- R115 (a), R154: under every accepted configuration the THGR228N telegram routes to its checksum and
its extractor. Two clauses are the model's reading: the positions in the list, temperature first and
humidity second (DEDUCED, log entry 7), and a temperature record without unit, qualitative string and
secondary value (DEDUCED, log entry 9). -/
def Obligations.ThgrTelegramRoutes : Prop :=
  ∀ (s : State) (a b : Byte) (q rest : List Byte), ConfigOk s.cfg → DataHeader s 0x50 → q.length = 6 →
    s.buf = 0x50 :: 0x1A :: 0x2D :: a :: b :: (q ++ rest) →
    let p := 0x1A :: 0x2D :: a :: b :: q
    ∃ t e part, exec .frame s = .next t ∧ t.buf = rest ∧ t.outbox = s.outbox ++ [⟨.ok, 0, 0, some e⟩]
      ∧ e.part = some part ∧ s.cfg.partNames[part]? = some "THGR228N" ∧ e.cksel = some 2 ∧ e.method = some .tempHum
      ∧ (ckPass s.cfg.ck[1] p = true → e.etype = .family ∧ e.dstat = .ok ∧ e.addr = some b
          ∧ ∃ hum extra, e.meas = ⟨.temperature, ⟨.numeric (tempValue p) (-1), none, none, none⟩⟩ :: hum :: extra
            ∧ hum.kind = .humidity)
      ∧ (ckPass s.cfg.ck[1] p = false → e.etype = .unknown ∧ e.dstat = .ckFail ∧ e.meas = [])

/-- R115 (b), R156: under every accepted configuration type code 0x9AEC at 104 bits routes to the
date/time extractor, and an event of it has only date/time measurements. -/
def Obligations.DateTimeTelegramRoutes : Prop :=
  ∀ (s : State) (q rest : List Byte), ConfigOk s.cfg → DataHeader s 0x68 → q.length = 11 →
    s.buf = 0x68 :: 0x9A :: 0xEC :: (q ++ rest) →
    ∃ t e, exec .frame s = .next t ∧ t.buf = rest ∧ t.outbox = s.outbox ++ [⟨.ok, 0, 0, some e⟩]
      ∧ e.method = some .dateTime ∧ (e.dstat = .ok ∨ e.dstat = .ckFail)
      ∧ ∀ x ∈ e.meas, ∃ component, x.kind = .dateTime component

/-- R152: an extractor reads the payload only below REQ_BYTES. -/
def Obligations.ExtractorReadsOnlyRequiredBytes : Prop :=
  ∀ (c : Config) (m : Method) (n : Nat) (p q : List Byte) (part : PartId), ConfigOk c → reqBytes? c m = some n →
    n ≤ p.length → p.take n = q.take n → extract c m p part = extract c m q part

/-! ### Checksums -/

/-- R138: S is what an 8-bit accumulator gives. -/
def Obligations.ChecksumByteAccumulator : Prop :=
  ∀ (x : CkTriple) (p : List Byte),
    ckSum x p = (List.range x.n).foldl (fun acc j => acc + (nib p j).zeroExtend 8) 0 - 10

/-- R139: one corrupted nibble in the covered places is always detected, and elsewhere changes nothing. -/
def Obligations.SingleNibbleCorruptionDetected : Prop :=
  ∀ (x : CkTriple) (p q : List Byte) (j : Nat), CkTripleOk x → ckInRange x p.length = true →
    q.length = p.length → nib q j ≠ nib p j → (∀ i, i ≠ j → nib q i = nib p i) →
    ((j < x.n ∨ j = x.hi ∨ j = x.lo) → ckPass x p = true → ckPass x q = false)
      ∧ (¬(j < x.n ∨ j = x.hi ∨ j = x.lo) → ckPass x q = ckPass x p)

/-! ### Invariants -/

/-- R21, R24, R33: the invariant holds after reset, under every accepted configuration and TCFG. -/
def Obligations.ResetMeetsInvariant : Prop :=
  (∀ c, ConfigOk c → (State.resetOf c).Inv ∧ (State.resetOf c).OutboxOk) ∧ State.reset.Inv

/-- R21, R24: every step keeps the invariant of BUF, FR and the configuration. -/
def Obligations.StepKeepsInvariant : Prop :=
  ∀ s t : State, s.Inv → step s = .next t → t.Inv

/-- R68, R70: every response the machine has returned stays of the form the records have. -/
def Obligations.StepKeepsResponsesWellFormed : Prop :=
  ∀ s t : State, s.Inv → s.OutboxOk → step s = .next t → t.OutboxOk
end

