-- ==== Sys2Proof/Laws/Bits.lean ====
section
/-! SUPPORT. The value of a concatenation of bit fields, in numbers. -/

namespace Sys2Proof.Laws

open Sys2Proof

/-- The upper field counts in units of the lower field's size. -/
theorem toNat_append_eq_add {n m : Nat} (x : BitVec n) (y : BitVec m) :
    (x ++ y).toNat = x.toNat * 2 ^ m + y.toNat := by
  rw [BitVec.toNat_append, ← Nat.shiftLeft_add_eq_or_of_lt y.isLt, Nat.shiftLeft_eq]

end Sys2Proof.Laws
end

