-- ==== Sys2Proof/Laws/State.lean ====
section
/-! SUPPORT. One lemma per field per update of the state, each true by rfl, so that no proof unfolds a
record update. -/

namespace Sys2Proof.Machine

open Sys2Proof

section
variable (s : State) (c : Config)

/-! ### withBuf -/

@[simp] theorem State.withBuf_cfg (b : List Byte) : (s.withBuf b).cfg = s.cfg := rfl
@[simp] theorem State.withBuf_buf (b : List Byte) : (s.withBuf b).buf = b := rfl
@[simp] theorem State.withBuf_ackPending (b : List Byte) : (s.withBuf b).ackPending = s.ackPending := rfl
@[simp] theorem State.withBuf_fr (b : List Byte) : (s.withBuf b).fr = s.fr := rfl
@[simp] theorem State.withBuf_errIll (b : List Byte) : (s.withBuf b).errIll = s.errIll := rfl
@[simp] theorem State.withBuf_errRange (b : List Byte) : (s.withBuf b).errRange = s.errRange := rfl
@[simp] theorem State.withBuf_inbox (b : List Byte) : (s.withBuf b).inbox = s.inbox := rfl
@[simp] theorem State.withBuf_outbox (b : List Byte) : (s.withBuf b).outbox = s.outbox := rfl

/-! ### withAck -/

@[simp] theorem State.withAck_cfg (v : Bool) : (s.withAck v).cfg = s.cfg := rfl
@[simp] theorem State.withAck_buf (v : Bool) : (s.withAck v).buf = s.buf := rfl
@[simp] theorem State.withAck_ackPending (v : Bool) : (s.withAck v).ackPending = v := rfl
@[simp] theorem State.withAck_fr (v : Bool) : (s.withAck v).fr = s.fr := rfl
@[simp] theorem State.withAck_errIll (v : Bool) : (s.withAck v).errIll = s.errIll := rfl
@[simp] theorem State.withAck_errRange (v : Bool) : (s.withAck v).errRange = s.errRange := rfl
@[simp] theorem State.withAck_inbox (v : Bool) : (s.withAck v).inbox = s.inbox := rfl
@[simp] theorem State.withAck_outbox (v : Bool) : (s.withAck v).outbox = s.outbox := rfl

/-! ### withFr -/

@[simp] theorem State.withFr_cfg (f : Option FrameReg) : (s.withFr f).cfg = s.cfg := rfl
@[simp] theorem State.withFr_buf (f : Option FrameReg) : (s.withFr f).buf = s.buf := rfl
@[simp] theorem State.withFr_ackPending (f : Option FrameReg) : (s.withFr f).ackPending = s.ackPending := rfl
@[simp] theorem State.withFr_fr (f : Option FrameReg) : (s.withFr f).fr = f := rfl
@[simp] theorem State.withFr_errIll (f : Option FrameReg) : (s.withFr f).errIll = s.errIll := rfl
@[simp] theorem State.withFr_errRange (f : Option FrameReg) : (s.withFr f).errRange = s.errRange := rfl
@[simp] theorem State.withFr_inbox (f : Option FrameReg) : (s.withFr f).inbox = s.inbox := rfl
@[simp] theorem State.withFr_outbox (f : Option FrameReg) : (s.withFr f).outbox = s.outbox := rfl

/-! ### withErrIll -/

@[simp] theorem State.withErrIll_cfg (v : Bool) : (s.withErrIll v).cfg = s.cfg := rfl
@[simp] theorem State.withErrIll_buf (v : Bool) : (s.withErrIll v).buf = s.buf := rfl
@[simp] theorem State.withErrIll_ackPending (v : Bool) : (s.withErrIll v).ackPending = s.ackPending := rfl
@[simp] theorem State.withErrIll_fr (v : Bool) : (s.withErrIll v).fr = s.fr := rfl
@[simp] theorem State.withErrIll_errIll (v : Bool) : (s.withErrIll v).errIll = v := rfl
@[simp] theorem State.withErrIll_errRange (v : Bool) : (s.withErrIll v).errRange = s.errRange := rfl
@[simp] theorem State.withErrIll_inbox (v : Bool) : (s.withErrIll v).inbox = s.inbox := rfl
@[simp] theorem State.withErrIll_outbox (v : Bool) : (s.withErrIll v).outbox = s.outbox := rfl

/-! ### withErrRange -/

@[simp] theorem State.withErrRange_cfg (v : Bool) : (s.withErrRange v).cfg = s.cfg := rfl
@[simp] theorem State.withErrRange_buf (v : Bool) : (s.withErrRange v).buf = s.buf := rfl
@[simp] theorem State.withErrRange_ackPending (v : Bool) : (s.withErrRange v).ackPending = s.ackPending := rfl
@[simp] theorem State.withErrRange_fr (v : Bool) : (s.withErrRange v).fr = s.fr := rfl
@[simp] theorem State.withErrRange_errIll (v : Bool) : (s.withErrRange v).errIll = s.errIll := rfl
@[simp] theorem State.withErrRange_errRange (v : Bool) : (s.withErrRange v).errRange = v := rfl
@[simp] theorem State.withErrRange_inbox (v : Bool) : (s.withErrRange v).inbox = s.inbox := rfl
@[simp] theorem State.withErrRange_outbox (v : Bool) : (s.withErrRange v).outbox = s.outbox := rfl

/-! ### withInbox -/

@[simp] theorem State.withInbox_cfg (l : List HostInput) : (s.withInbox l).cfg = s.cfg := rfl
@[simp] theorem State.withInbox_buf (l : List HostInput) : (s.withInbox l).buf = s.buf := rfl
@[simp] theorem State.withInbox_ackPending (l : List HostInput) : (s.withInbox l).ackPending = s.ackPending := rfl
@[simp] theorem State.withInbox_fr (l : List HostInput) : (s.withInbox l).fr = s.fr := rfl
@[simp] theorem State.withInbox_errIll (l : List HostInput) : (s.withInbox l).errIll = s.errIll := rfl
@[simp] theorem State.withInbox_errRange (l : List HostInput) : (s.withInbox l).errRange = s.errRange := rfl
@[simp] theorem State.withInbox_inbox (l : List HostInput) : (s.withInbox l).inbox = l := rfl
@[simp] theorem State.withInbox_outbox (l : List HostInput) : (s.withInbox l).outbox = s.outbox := rfl

/-! ### answer -/

@[simp] theorem State.answer_cfg (r : Response) : (s.answer r).cfg = s.cfg := rfl
@[simp] theorem State.answer_buf (r : Response) : (s.answer r).buf = s.buf := rfl
@[simp] theorem State.answer_ackPending (r : Response) : (s.answer r).ackPending = s.ackPending := rfl
@[simp] theorem State.answer_fr (r : Response) : (s.answer r).fr = s.fr := rfl
@[simp] theorem State.answer_errIll (r : Response) : (s.answer r).errIll = s.errIll := rfl
@[simp] theorem State.answer_errRange (r : Response) : (s.answer r).errRange = s.errRange := rfl
@[simp] theorem State.answer_inbox (r : Response) : (s.answer r).inbox = s.inbox := rfl
@[simp] theorem State.answer_outbox (r : Response) : (s.answer r).outbox = s.outbox ++ [r] := rfl

/-! ### respond -/

@[simp] theorem State.respond_cfg (st : Status) (d0 d1 : DataWord) : (s.respond st d0 d1).cfg = s.cfg := rfl
@[simp] theorem State.respond_buf (st : Status) (d0 d1 : DataWord) : (s.respond st d0 d1).buf = s.buf := rfl
@[simp] theorem State.respond_ackPending (st : Status) (d0 d1 : DataWord) : (s.respond st d0 d1).ackPending = s.ackPending := rfl
@[simp] theorem State.respond_fr (st : Status) (d0 d1 : DataWord) : (s.respond st d0 d1).fr = s.fr := rfl
@[simp] theorem State.respond_errIll (st : Status) (d0 d1 : DataWord) : (s.respond st d0 d1).errIll = s.errIll := rfl
@[simp] theorem State.respond_errRange (st : Status) (d0 d1 : DataWord) : (s.respond st d0 d1).errRange = s.errRange := rfl
@[simp] theorem State.respond_inbox (st : Status) (d0 d1 : DataWord) : (s.respond st d0 d1).inbox = s.inbox := rfl
@[simp] theorem State.respond_outbox (st : Status) (d0 d1 : DataWord) : (s.respond st d0 d1).outbox = s.outbox ++ [⟨st, d0, d1, none⟩] := rfl

/-! ### respondEvent -/

@[simp] theorem State.respondEvent_cfg (e : Event) : (s.respondEvent e).cfg = s.cfg := rfl
@[simp] theorem State.respondEvent_buf (e : Event) : (s.respondEvent e).buf = s.buf := rfl
@[simp] theorem State.respondEvent_ackPending (e : Event) : (s.respondEvent e).ackPending = s.ackPending := rfl
@[simp] theorem State.respondEvent_fr (e : Event) : (s.respondEvent e).fr = s.fr := rfl
@[simp] theorem State.respondEvent_errIll (e : Event) : (s.respondEvent e).errIll = s.errIll := rfl
@[simp] theorem State.respondEvent_errRange (e : Event) : (s.respondEvent e).errRange = s.errRange := rfl
@[simp] theorem State.respondEvent_inbox (e : Event) : (s.respondEvent e).inbox = s.inbox := rfl
@[simp] theorem State.respondEvent_outbox (e : Event) : (s.respondEvent e).outbox = s.outbox ++ [⟨.ok, 0, 0, some e⟩] := rfl

/-! ### bufAppend -/

@[simp] theorem State.bufAppend_cfg (b : Byte) : (s.bufAppend b).cfg = s.cfg := rfl
@[simp] theorem State.bufAppend_buf (b : Byte) : (s.bufAppend b).buf = s.buf ++ [b] := rfl
@[simp] theorem State.bufAppend_ackPending (b : Byte) : (s.bufAppend b).ackPending = s.ackPending := rfl
@[simp] theorem State.bufAppend_fr (b : Byte) : (s.bufAppend b).fr = s.fr := rfl
@[simp] theorem State.bufAppend_errIll (b : Byte) : (s.bufAppend b).errIll = s.errIll := rfl
@[simp] theorem State.bufAppend_errRange (b : Byte) : (s.bufAppend b).errRange = s.errRange := rfl
@[simp] theorem State.bufAppend_inbox (b : Byte) : (s.bufAppend b).inbox = s.inbox := rfl
@[simp] theorem State.bufAppend_outbox (b : Byte) : (s.bufAppend b).outbox = s.outbox := rfl

/-! ### bufDrop -/

@[simp] theorem State.bufDrop_cfg (n : Nat) : (s.bufDrop n).cfg = s.cfg := rfl
@[simp] theorem State.bufDrop_buf (n : Nat) : (s.bufDrop n).buf = s.buf.drop n := rfl
@[simp] theorem State.bufDrop_ackPending (n : Nat) : (s.bufDrop n).ackPending = s.ackPending := rfl
@[simp] theorem State.bufDrop_fr (n : Nat) : (s.bufDrop n).fr = s.fr := rfl
@[simp] theorem State.bufDrop_errIll (n : Nat) : (s.bufDrop n).errIll = s.errIll := rfl
@[simp] theorem State.bufDrop_errRange (n : Nat) : (s.bufDrop n).errRange = s.errRange := rfl
@[simp] theorem State.bufDrop_inbox (n : Nat) : (s.bufDrop n).inbox = s.inbox := rfl
@[simp] theorem State.bufDrop_outbox (n : Nat) : (s.bufDrop n).outbox = s.outbox := rfl

/-! ### bufClear -/

@[simp] theorem State.bufClear_cfg : s.bufClear.cfg = s.cfg := rfl
@[simp] theorem State.bufClear_buf : s.bufClear.buf = [] := rfl
@[simp] theorem State.bufClear_ackPending : s.bufClear.ackPending = s.ackPending := rfl
@[simp] theorem State.bufClear_fr : s.bufClear.fr = s.fr := rfl
@[simp] theorem State.bufClear_errIll : s.bufClear.errIll = s.errIll := rfl
@[simp] theorem State.bufClear_errRange : s.bufClear.errRange = s.errRange := rfl
@[simp] theorem State.bufClear_inbox : s.bufClear.inbox = s.inbox := rfl
@[simp] theorem State.bufClear_outbox : s.bufClear.outbox = s.outbox := rfl

/-! ### applyReset -/

@[simp] theorem State.applyReset_cfg : s.applyReset.cfg = s.cfg := rfl
@[simp] theorem State.applyReset_buf : s.applyReset.buf = [] := rfl
@[simp] theorem State.applyReset_ackPending : s.applyReset.ackPending = false := rfl
@[simp] theorem State.applyReset_fr : s.applyReset.fr = none := rfl
@[simp] theorem State.applyReset_errIll : s.applyReset.errIll = false := rfl
@[simp] theorem State.applyReset_errRange : s.applyReset.errRange = false := rfl
@[simp] theorem State.applyReset_inbox : s.applyReset.inbox = s.inbox := rfl
@[simp] theorem State.applyReset_outbox : s.applyReset.outbox = s.outbox := rfl

/-! ### issueNext -/

@[simp] theorem State.issueNext_cfg (x : HostInput) : (s.issueNext x).cfg = s.cfg := rfl
@[simp] theorem State.issueNext_buf (x : HostInput) : (s.issueNext x).buf = s.buf := rfl
@[simp] theorem State.issueNext_ackPending (x : HostInput) : (s.issueNext x).ackPending = s.ackPending := rfl
@[simp] theorem State.issueNext_fr (x : HostInput) : (s.issueNext x).fr = s.fr := rfl
@[simp] theorem State.issueNext_errIll (x : HostInput) : (s.issueNext x).errIll = s.errIll := rfl
@[simp] theorem State.issueNext_errRange (x : HostInput) : (s.issueNext x).errRange = s.errRange := rfl
@[simp] theorem State.issueNext_inbox (x : HostInput) : (s.issueNext x).inbox = x :: s.inbox := rfl
@[simp] theorem State.issueNext_outbox (x : HostInput) : (s.issueNext x).outbox = s.outbox := rfl

/-! ### resetOf -/

@[simp] theorem State.resetOf_cfg : (State.resetOf c).cfg = c := rfl
@[simp] theorem State.resetOf_buf : (State.resetOf c).buf = [] := rfl
@[simp] theorem State.resetOf_ackPending : (State.resetOf c).ackPending = false := rfl
@[simp] theorem State.resetOf_fr : (State.resetOf c).fr = none := rfl
@[simp] theorem State.resetOf_errIll : (State.resetOf c).errIll = false := rfl
@[simp] theorem State.resetOf_errRange : (State.resetOf c).errRange = false := rfl
@[simp] theorem State.resetOf_inbox : (State.resetOf c).inbox = [] := rfl
@[simp] theorem State.resetOf_outbox : (State.resetOf c).outbox = [] := rfl

end

end Sys2Proof.Machine
end

