-- ==== Sys2Proof/Laws/Ops.lean ====
section
/-! SUPPORT. One lemma per shared operation that says everything it can do; proofs cite these instead of
unfolding the operation. -/

namespace Sys2Proof.Machine

open Sys2Proof

/-! ### Responses and errors -/

theorem State.respond_eq (s : State) (st : Status) (d0 d1 : DataWord) :
    s.respond st d0 d1 = { s with outbox := s.outbox ++ [⟨st, d0, d1, none⟩] } := rfl

theorem State.respondEvent_eq (s : State) (e : Event) :
    s.respondEvent e = { s with outbox := s.outbox ++ [⟨.ok, 0, 0, some e⟩] } := rfl

theorem State.raise_eIll (s : State) :
    s.raise .eIll = { s with errIll := true, outbox := s.outbox ++ [⟨.eIll, 0, 0, none⟩] } := rfl

theorem State.raise_eRange (s : State) :
    s.raise .eRange = { s with errRange := true, outbox := s.outbox ++ [⟨.eRange, 0, 0, none⟩] } := rfl

/-! ### Reading the frame register -/

theorem State.readFrame_none (s : State) (g : FrameReg → Bool) (d0 d1 : FrameReg → DataWord) (h : s.fr = none) :
    s.readFrame g d0 d1 = s.raise .eRange := by
  simp [State.readFrame, h]

theorem State.readFrame_outOfRange (s : State) (g : FrameReg → Bool) (d0 d1 : FrameReg → DataWord) (f : FrameReg)
    (h : s.fr = some f) (hg : g f = false) : s.readFrame g d0 d1 = s.raise .eRange := by
  simp [State.readFrame, h, hg]

theorem State.readFrame_inRange (s : State) (g : FrameReg → Bool) (d0 d1 : FrameReg → DataWord) (f : FrameReg)
    (h : s.fr = some f) (hg : g f = true) : s.readFrame g d0 d1 = s.respond .ok (d0 f) (d1 f) := by
  simp [State.readFrame, h, hg]

/-- A reader of FR answers ERANGE, or OK with the words it reads from a frame that is in range. -/
theorem State.readFrame_cases (s : State) (g : FrameReg → Bool) (d0 d1 : FrameReg → DataWord) :
    (s.readFrame g d0 d1 = s.raise .eRange ∧ ∀ f, s.fr = some f → g f = false)
      ∨ ∃ f, s.fr = some f ∧ g f = true ∧ s.readFrame g d0 d1 = s.respond .ok (d0 f) (d1 f) := by
  cases hf : s.fr with
  | none => exact .inl ⟨s.readFrame_none g d0 d1 hf, by simp⟩
  | some f =>
    cases hg : g f with
    | false => exact .inl ⟨s.readFrame_outOfRange g d0 d1 f hf hg, by simp [hg]⟩
    | true => exact .inr ⟨f, rfl, hg, s.readFrame_inRange g d0 d1 f hf hg⟩

/-! ### The command channel and the step -/

theorem State.takeInput_nil (s : State) (h : s.inbox = []) : s.takeInput = none := by
  simp [State.takeInput, h]

theorem State.takeInput_cons (s : State) (x : HostInput) (rest : List HostInput) (h : s.inbox = x :: rest) :
    s.takeInput = some (x, { s with inbox := rest }) := by
  simp [State.takeInput, h, State.withInbox]

theorem State.takeInput_issueNext (s : State) (x : HostInput) : (s.issueNext x).takeInput = some (x, s) := rfl

theorem step_refused (s : State) (h : ¬ConfigOk s.cfg) : step s = .refused .configRefused := if_neg h

theorem step_accepted (s : State) (h : ConfigOk s.cfg) : step s = runNext s := if_pos h

theorem step_cons (s : State) (x : HostInput) (rest : List HostInput) (hc : ConfigOk s.cfg)
    (h : s.inbox = x :: rest) : step s = runInput x { s with inbox := rest } := by
  rw [step_accepted s hc, runNext, s.takeInput_cons x rest h]

/-- Everything a step can do: refuse the configuration, do nothing without input, run a decoded command,
answer EILL to an illegal word, reset. -/
theorem step_cases (s : State) :
    (¬ConfigOk s.cfg ∧ step s = .refused .configRefused)
      ∨ (ConfigOk s.cfg ∧ s.inbox = [] ∧ step s = .next s)
      ∨ (ConfigOk s.cfg ∧ ∃ rest, s.inbox = .reset :: rest
          ∧ step s = .next ({ s with inbox := rest } : State).applyReset)
      ∨ (ConfigOk s.cfg ∧ ∃ w rest i, s.inbox = .word w :: rest ∧ decode w = .ok i
          ∧ step s = exec i { s with inbox := rest })
      ∨ (ConfigOk s.cfg ∧ ∃ w rest x, s.inbox = .word w :: rest ∧ decode w = .error x
          ∧ step s = .next (({ s with inbox := rest } : State).raise .eIll)) := by
  by_cases hc : ConfigOk s.cfg
  · refine .inr ?_
    cases hi : s.inbox with
    | nil => exact .inl ⟨hc, rfl, by rw [step_accepted s hc, runNext, s.takeInput_nil hi]⟩
    | cons x rest =>
      have hs := step_cons s x rest hc hi
      cases x with
      | reset => exact .inr (.inl ⟨hc, rest, rfl, hs⟩)
      | word w =>
        cases hw : decode w with
        | ok i => exact .inr (.inr (.inl ⟨hc, w, rest, i, rfl, hw, by simpa [runInput, runWord, hw] using hs⟩))
        | error x => exact .inr (.inr (.inr ⟨hc, w, rest, x, rfl, hw, by simpa [runInput, runWord, hw] using hs⟩))
  · exact .inl ⟨hc, step_refused s hc⟩

end Sys2Proof.Machine
end

