-- ==== Sys2Proof/Laws/Framer.lean ====
section
/-! SUPPORT. What the framing unit, the lookup and the decode pipeline can do, one inversion lemma each
(spec 30_encoding.md R63; 40_framer.md R81; 41_decode.md R113, R117). -/

namespace Sys2Proof.Machine

open Sys2Proof

/-! ### Fields of the header -/

theorem hdrBits_toNat (hdr : Byte) : (hdrBits hdr).toNat = hdr.toNat % 128 := by
  simp [hdrBits, BitVec.extractLsb'_toNat]

theorem hdrBits_eq_zero (hdr : Byte) : hdrBits hdr = 0 ↔ hdr.toNat % 128 = 0 := by
  rw [← hdrBits_toNat]
  exact ⟨fun h => by simp [h], fun h => BitVec.eq_of_toNat_eq (by simpa using h)⟩

theorem payloadBytes_le (bits : BitVec 7) : payloadBytes bits.toNat ≤ 16 := by
  have := bits.isLt
  simp only [payloadBytes]
  omega

/-! ### Classification (R63) -/

/-- The class of a header, with the test that decided it. -/
theorem classify_cases (c : Config) (ack : Bool) (hdr : Byte) :
    (classify c ack hdr = .version ∧ ack = true ∧ hdr = c.versionSentinel)
      ∨ (classify c ack hdr = .mode ∧ ¬(ack = true ∧ hdr = c.versionSentinel) ∧ ack = true ∧ hdr ∈ c.modeSentinels)
      ∨ (classify c ack hdr = .empty ∧ ¬(ack = true ∧ hdr = c.versionSentinel)
          ∧ ¬(ack = true ∧ hdr ∈ c.modeSentinels) ∧ hdrBits hdr = 0)
      ∨ (classify c ack hdr = .data ∧ ¬(ack = true ∧ hdr = c.versionSentinel)
          ∧ ¬(ack = true ∧ hdr ∈ c.modeSentinels) ∧ hdrBits hdr ≠ 0) := by
  unfold classify
  split_ifs with h1 h2 h3
  · exact .inl ⟨rfl, h1⟩
  · exact .inr (.inl ⟨rfl, h1, h2⟩)
  · exact .inr (.inr (.inl ⟨rfl, h1, h2, h3⟩))
  · exact .inr (.inr (.inr ⟨rfl, h1, h2, h3⟩))

/-! ### FRAME (R81) -/

theorem State.deliver_eq (s : State) (hdr : Byte) (n : Nat) (p : List Byte) (dr : DecodeResult) :
    s.deliver hdr n p dr
      = { s with buf := s.buf.drop n, fr := some (mkFrameReg hdr dr.etype p),
                 outbox := s.outbox ++ [⟨.ok, 0, 0, some (mkEvent hdr n p dr)⟩] } := rfl

/-- Everything FRAME can do: NOMSG, INCOMPLETE, or deliver a frame of one of the four classes. -/
theorem State.frameStep_cases (s : State) :
    (s.buf = [] ∧ s.frameStep = s.respond .noMsg 0 0)
      ∨ ∃ hdr rest, s.buf = hdr :: rest ∧
        ((classify s.cfg s.ackPending hdr = .version
            ∧ s.frameStep = s.deliver hdr s.buf.length rest (noDecode .version))
          ∨ (classify s.cfg s.ackPending hdr = .mode ∧ s.frameStep = s.deliver hdr 1 [] (noDecode .mode))
          ∨ (classify s.cfg s.ackPending hdr = .empty ∧ s.frameStep = s.deliver hdr 1 [] (noDecode .empty))
          ∨ (classify s.cfg s.ackPending hdr = .data
              ∧ s.buf.length < 1 + payloadBytes (hdrBits hdr).toNat
              ∧ s.frameStep = s.respond .incomplete (zext32 (1 + payloadBytes (hdrBits hdr).toNat))
                  (zext32 s.buf.length))
          ∨ (classify s.cfg s.ackPending hdr = .data
              ∧ 1 + payloadBytes (hdrBits hdr).toNat ≤ s.buf.length
              ∧ s.frameStep = s.deliver hdr (1 + payloadBytes (hdrBits hdr).toNat)
                  (rest.take (payloadBytes (hdrBits hdr).toNat))
                  (decodeFrame s.cfg (hdrBits hdr) (rest.take (payloadBytes (hdrBits hdr).toNat))))) := by
  cases hb : s.buf with
  | nil => exact .inl ⟨rfl, by simp [State.frameStep, hb]⟩
  | cons hdr rest =>
    refine .inr ⟨hdr, rest, rfl, ?_⟩
    cases hk : classify s.cfg s.ackPending hdr with
    | version => exact .inl ⟨rfl, by simp [State.frameStep, State.frameHeader, hb, hk]⟩
    | mode => exact .inr (.inl ⟨rfl, by simp [State.frameStep, State.frameHeader, hb, hk]⟩)
    | empty => exact .inr (.inr (.inl ⟨rfl, by simp [State.frameStep, State.frameHeader, hb, hk]⟩))
    | data =>
      refine .inr (.inr (.inr ?_))
      have hs : s.frameStep = s.frameData hdr rest := by simp [State.frameStep, State.frameHeader, hb, hk]
      rw [hs, ← hb]
      by_cases hl : s.buf.length < 1 + payloadBytes (hdrBits hdr).toNat
      · exact .inl ⟨rfl, hl, if_pos hl⟩
      · exact .inr ⟨rfl, by omega, if_neg hl⟩

/-! ### The lookup (R113) -/

/-- The two probes: the exact entry, else the masked one, else none. -/
theorem lookupEntry_cases (c : Config) (key : Key) :
    (∃ e, probe c key = some e ∧ lookupEntry c key = some (e, .exact))
      ∨ (probe c key = none ∧ ∃ e, probe c (maskedKey key) = some e ∧ lookupEntry c key = some (e, .masked))
      ∨ (probe c key = none ∧ probe c (maskedKey key) = none ∧ lookupEntry c key = none) := by
  unfold lookupEntry
  cases h1 : probe c key with
  | some e => exact .inl ⟨e, rfl, rfl⟩
  | none =>
    cases h2 : probe c (maskedKey key) with
    | some e => exact .inr (.inl ⟨rfl, e, rfl, rfl⟩)
    | none => exact .inr (.inr ⟨rfl, rfl, rfl⟩)

/-- A table entry that a probe finds is a row of the table. -/
theorem mem_table_of_probe (c : Config) (key : Key) (e : Entry) (h : probe c key = some e) :
    (key, e) ∈ c.table := by
  unfold probe at h
  generalize c.table = l at h ⊢
  induction l with
  | nil => simp at h
  | cons r l ih =>
    obtain ⟨k, e'⟩ := r
    by_cases hk : key = k
    · subst hk
      simp only [List.lookup, beq_self_eq_true, Option.some.injEq] at h
      simp [h]
    · have : (key == k) = false := by simpa using hk
      simp only [List.lookup, this] at h
      exact List.mem_cons_of_mem _ (ih h)

/-! ### The decode pipeline (R117) -/

/-- Everything Decode can return, with what decided it. -/
theorem decodeFrame_cases (c : Config) (bits : BitVec 7) (p : List Byte) :
    (p.length < typeCodeBytes ∧ decodeFrame c bits p = decodeShort)
      ∨ (typeCodeBytes ≤ p.length ∧ lookupEntry c (dispatchKey p bits) = none
          ∧ decodeFrame c bits p = decodeMiss (dispatchKey p bits))
      ∨ (typeCodeBytes ≤ p.length ∧ ∃ e lk, lookupEntry c (dispatchKey p bits) = some (e, lk)
          ∧ ((e.method = none ∧ decodeFrame c bits p = decodeUnhandled (dispatchKey p bits) e lk)
            ∨ ∃ m, e.method = some m
              ∧ ((ckGate c e p = false ∧ decodeFrame c bits p = decodeCkFail (dispatchKey p bits) e lk m)
                ∨ (ckGate c e p = true ∧ decodeFrame c bits p = decodeOk c (dispatchKey p bits) e lk m p)))) := by
  by_cases hl : p.length < typeCodeBytes
  · exact .inl ⟨hl, if_pos hl⟩
  · have hd : decodeFrame c bits p = _ := if_neg hl
    refine .inr ?_
    cases hk : lookupEntry c (dispatchKey p bits) with
    | none => exact .inl ⟨by omega, rfl, by simp [hd, hk]⟩
    | some x =>
      obtain ⟨e, lk⟩ := x
      refine .inr ⟨by omega, e, lk, rfl, ?_⟩
      cases hm : e.method with
      | none => exact .inl ⟨rfl, by simp [hd, hk, decodeEntry, hm]⟩
      | some m =>
        refine .inr ⟨m, rfl, ?_⟩
        cases hg : ckGate c e p with
        | false => exact .inl ⟨rfl, by simp [hd, hk, decodeEntry, hm, hg]⟩
        | true => exact .inr ⟨rfl, by simp [hd, hk, decodeEntry, hm, hg]⟩

/-! ### Nibbles and sums (42_nibble_checksum.md R130, R132) -/

@[simp] theorem nsum_zero (p : List Byte) : nsum p 0 = 0 := rfl

@[simp] theorem nsum_succ (p : List Byte) (n : Nat) : nsum p (n + 1) = nsum p n + (nib p n).toNat := rfl

theorem nib_even (p : List Byte) (i : Nat) : nib p (2 * i) = (byteAt p i).extractLsb' 4 4 := by
  simp [nib]

theorem nib_odd (p : List Byte) (i : Nat) : nib p (2 * i + 1) = (byteAt p i).extractLsb' 0 4 := by
  have h1 : (2 * i + 1) % 2 = 1 := by omega
  have h2 : (2 * i + 1) / 2 = i := by omega
  simp [nib, h1, h2]

theorem nib_beyond (p : List Byte) (j : Nat) (h : 2 * p.length ≤ j) : nib p j = 0 := by
  have hb : byteAt p (j / 2) = 0 := by
    simp only [byteAt, List.getD_eq_getElem?_getD]
    rw [List.getElem?_eq_none (by omega)]
    rfl
  unfold nib
  rw [hb]
  split <;> rfl

theorem nib_lt (p : List Byte) (j : Nat) : (nib p j).toNat < 16 := (nib p j).isLt

end Sys2Proof.Machine
end

