-- ==== Sys2Proof/Laws/PerInstr.lean ====
section
/-! SUPPORT. The per-instruction family OpcodeField: in the word of every command OP is the command's
opcode of the map, RSV is 0 and OPD is its operand (spec 30_encoding.md R66). -/

namespace Sys2Proof.Laws

open Sys2Proof

/-- The fields of a command's word are the ones R66 gives it. -/
def OpcodeField.Statement (i : Instr) : Prop :=
  opField (encode i) = i.opcode ∧ rsvField (encode i) = 0 ∧ opdField (encode i) = i.operand

theorem OpcodeField.fields_of_append (op : BitVec 4) (opd : Byte) :
    opField (op ++ (0 : BitVec 4) ++ opd) = op ∧ rsvField (op ++ (0 : BitVec 4) ++ opd) = 0
      ∧ opdField (op ++ (0 : BitVec 4) ++ opd) = opd := by
  have ho := op.isLt
  have hd := opd.isLt
  refine ⟨?_, ?_, ?_⟩ <;> apply BitVec.eq_of_toNat_eq <;>
    simp only [opField, rsvField, opdField, BitVec.extractLsb'_toNat, toNat_append_eq_add,
      Nat.shiftRight_eq_div_pow] <;>
    simp <;> omega

theorem OpcodeField.push (b : Byte) : OpcodeField.Statement (.push b) := OpcodeField.fields_of_append _ _
theorem OpcodeField.frame : OpcodeField.Statement .frame := OpcodeField.fields_of_append _ _
theorem OpcodeField.clear : OpcodeField.Statement .clear := OpcodeField.fields_of_append _ _
theorem OpcodeField.setack (v : BitVec 1) : OpcodeField.Statement (.setack v) := OpcodeField.fields_of_append _ _
theorem OpcodeField.cksum (k : Byte) : OpcodeField.Statement (.cksum k) := OpcodeField.fields_of_append _ _
theorem OpcodeField.nib (j : Byte) : OpcodeField.Statement (.nib j) := OpcodeField.fields_of_append _ _
theorem OpcodeField.nsum (n : Byte) : OpcodeField.Statement (.nsum n) := OpcodeField.fields_of_append _ _
theorem OpcodeField.temp : OpcodeField.Statement .temp := OpcodeField.fields_of_append _ _
theorem OpcodeField.key : OpcodeField.Statement .key := OpcodeField.fields_of_append _ _
theorem OpcodeField.stat : OpcodeField.Statement .stat := OpcodeField.fields_of_append _ _

end Sys2Proof.Laws
end

