-- ==== Sys2Proof/Tests/Slice0.lean ====
section
/-! SUPPORT. The model's own tests. Expected results are those of spec/95_test_vectors.md (the vector is
named with each test) or of the encoding table 30_encoding.md R66. The witness theorems show, for each
statement with hypotheses, a concrete state and operands that meet them all. -/

namespace Sys2Proof.Tests

open Sys2Proof Sys2Proof.Machine

/-! ### Helpers -/

/-- A small state under TCFG. -/
def st (buf : List Byte) (ack : Bool := false) (fr : Option FrameReg := none) : State :=
  { State.reset with buf := buf, ackPending := ack, fr := fr }

/-- A small state whose next input is a command word. -/
def stWord (w : CmdWord) : State := { State.reset with inbox := [.word w] }

/-- FR holding a frame. -/
def reg (hdr : Byte) (et : EType) (p : List Byte) : Option FrameReg := some ⟨hdr, et, p, BitVec.ofNat 16 p.length⟩

/-- The test payload of 95_test_vectors.md. -/
def t80 : List Byte := [0x1A, 0x2D, 0x10, 0xEC, 0x32, 0x21, 0x08, 0x44, 0x43, 0x00]

/-- FR holding T80. -/
def stT80 : State := st [] false (reg 0x50 .family t80)

/-- Status and data words of the latest response. -/
def said : Result → Option (Status × DataWord × DataWord)
  | .next t => t.outbox.getLast?.map fun r => (r.st, r.d0, r.d1)
  | .fault _ => none
  | .refused _ => none

/-- The event of the latest response. -/
def evOf : Result → Option Event
  | .next t => t.outbox.getLast?.bind Response.ev
  | .fault _ => none
  | .refused _ => none

/-- The state after. -/
def after : Result → Option State
  | .next t => some t
  | .fault _ => none
  | .refused _ => none

/-- TCFG passes 00_scope.md R9, as 95_test_vectors.md section 0 says. -/
theorem test_tcfg_accepted : ConfigOk Config.tcfg := by decide

/-! ### Well-formedness smoke: CKSUM's operand is the one check -/

theorem test_wellFormed_refuses_cksum_0 : (Instr.cksum 0).wellFormed = false := by decide
theorem test_wellFormed_refuses_cksum_9 : (Instr.cksum 9).wellFormed = false := by decide

/-! ### Decoding: words written out bit by bit from R66 -/

theorem test_decode_push : decode 0b0001_0000_10101011#16 = .ok (.push 0xAB) := by decide
theorem test_decode_frame : decode 0b0010_0000_00000000#16 = .ok .frame := by decide
theorem test_decode_clear : decode 0b0011_0000_00000000#16 = .ok .clear := by decide
theorem test_decode_setack : decode 0b0100_0000_00000001#16 = .ok (.setack 1) := by decide
theorem test_decode_cksum : decode 0b0101_0000_00001000#16 = .ok (.cksum 8) := by decide
theorem test_decode_nib : decode 0b0110_0000_00010011#16 = .ok (.nib 19) := by decide
theorem test_decode_nsum : decode 0b0111_0000_00010100#16 = .ok (.nsum 20) := by decide
theorem test_decode_temp : decode 0b1000_0000_00000000#16 = .ok .temp := by decide
theorem test_decode_key : decode 0b1001_0000_00000000#16 = .ok .key := by decide
theorem test_decode_stat : decode 0b1010_0000_00000000#16 = .ok .stat := by decide

/-- Vectors V-E5 to V-E11. -/
theorem test_decode_refuses :
    decode 0x0000 = .error .reservedOp ∧ decode 0xB000 = .error .reservedOp ∧ decode 0xF0FF = .error .reservedOp
      ∧ decode 0x1100 = .error .rsvNonzero ∧ decode 0x2001 = .error .opdNonzero ∧ decode 0xA001 = .error .opdNonzero
      ∧ decode 0x4002 = .error .setackOperand ∧ decode 0x5000 = .error .cksumVariant
      ∧ decode 0x5009 = .error .cksumVariant := by decide

theorem test_decodeTableWord : decodeTableWord 16 0x5002 = some (.cksum 2) ∧ decodeTableWord 16 0x5000 = none := by decide

/-! ### The configuration check -/

theorem test_small_buffer_refused : ¬ConfigOk { Config.tcfg with bufCap := 16 } := by decide
theorem test_empty_sentinel_refused : ¬ConfigOk { Config.tcfg with versionSentinel := 0x80 } := by decide
theorem test_short_row_refused : ¬ConfigOk { Config.tcfg with table := (0x000018, ⟨0, none, none⟩) :: Config.tcfg.table } := by
  decide

/-! ### One step each -/

/-- V-F23 and its PUSH word. -/
theorem test_push : (after (step ((st [0x10]).withFetchWord 16 0x10AB))).map State.buf = some [0x10, 0xAB] := by decide

/-- V-F21: PUSH on a full buffer. -/
theorem test_push_full : said (exec (.push 0xAA) (st (List.replicate 32 0x7F))) = some (.full, 0x20, 0) := by decide

/-- V-D1: FRAME of T80; HUM(T80) and EXTRA stay free. -/
theorem test_frame_t80 :
    ((evOf (exec .frame (st (0x50 :: t80)))).any fun e =>
      e.etype == .family && e.dstat == .ok && e.consumed == 11 && e.lookup == some .exact && e.key == some 0x1A2D50
        && e.part == some 0 && e.cksel == some 2 && e.method == some .tempHum && e.ckOk == some true
        && e.addr == some 0xEC && e.tempNeg == some true
        && (e.meas.take 1).map Measurement.body == [⟨.numeric (-213) (-1), none, none, none⟩]
        && (e.meas.take 2).map Measurement.kind == [.temperature, .humidity]) = true := by decide

/-- The device identifier of that event, R122's example. -/
theorem test_device_id :
    (evOf (exec .frame (st (0x50 :: t80)))).bind (Event.deviceId Config.tcfg) = some "thgr228n.ec".toList := by decide

/-- V-F16: greedy VERSION. -/
theorem test_frame_version :
    (evOf (exec .frame (st [0x4D, 0x01, 0x00, 0x08, 0xAB] true))).map (fun e => (e.etype, e.consumed, e.payload, e.dstat))
        = some (.version, 5, [0x01, 0x00, 0x08, 0xAB], .none) := by decide

/-- V-F20. -/
theorem test_clear : said (exec .clear (st [0x50, 0x1A, 0x2D])) = some (.ok, 3, 0) := by decide

/-- V-F24. -/
theorem test_setack : (after (exec (.setack 1) (st []))).map State.ackPending = some true := by decide

/-- V-C5: variant 5 reads the nibbles of variant 2 in the other order. -/
theorem test_cksum_5 : said (exec (.cksum 5) stT80) = some (.ok, 0x00344300, 0) := by decide

/-- V-C7: the sum wraps below zero. -/
theorem test_cksum_wraps :
    said (exec (.cksum 2) (st [] false (reg 0x50 .unknown (List.replicate 10 0)))) = some (.ok, 0x0000F600, 0) := by decide

/-- V-N2: the odd nibble is the low half. -/
theorem test_nib_odd : said (exec (.nib 1) stT80) = some (.ok, 0xA, 0) := by decide

/-- V-N5. -/
theorem test_nib_beyond : said (exec (.nib 20) stT80) = some (.eRange, 0, 0) := by decide

/-- V-N8. -/
theorem test_nsum_all : said (exec (.nsum 20) stT80) = some (.ok, 84, 0) := by decide

/-- V-N9. -/
theorem test_nsum_beyond : said (exec (.nsum 21) stT80) = some (.eRange, 0, 0) := by decide

/-- V-T1. -/
theorem test_temp_negative : said (exec .temp stT80) = some (.ok, 0x8D5, 0xFFFFFF2B) := by decide

/-- V-T5: negative zero. -/
theorem test_temp_minus_zero :
    said (exec .temp (st [] false (reg 0x50 .unknown [0, 0, 0, 0, 0, 0, 8, 0, 0, 0]))) = some (.ok, 0x800, 0) := by decide

/-- V-K1. -/
theorem test_key_exact : said (exec .key stT80) = some (.ok, 0x001A2D50, 0x010A2D50) := by decide

/-- V-K2: the masked probe. -/
theorem test_key_masked :
    said (exec .key (st [] false (reg 0x68 .family [0x9A, 0xEC]))) = some (.ok, 0x009AEC68, 0x020AEC68) := by decide

/-- V-F25. -/
theorem test_stat : said (exec .stat (st [0x50] true)) = some (.ok, 0x00020001, 0) := by decide

/-- V-E6: an illegal word. -/
theorem test_illegal_word : said (step (stWord 0x1100)) = some (.eIll, 0, 0) := by decide

/-! ### The assembler (R71, R72) -/

theorem test_asm_push : asmWords "PUSH 0x50 ; a byte".toList = some [0x1050] := by decide
theorem test_asm_pushs : asmWords "PUSHS 0x50, 26, 0x2D".toList = some [0x1050, 0x101A, 0x102D] := by decide
theorem test_asm_refuses : asmWords "CKSUM 9".toList = none := by decide

/-! ### The host's session view (10_state.md R31) -/

theorem test_session_buffering : sessionBuffering [(.frame, .incomplete), (.push 0x50, .ok)] (st [0x50]) = true := by decide

/-! ### Witnesses for the statements with hypotheses -/

theorem witness_DecodeOfEncode : (Instr.cksum 1).wellFormed = true ∧ (Instr.cksum 8).wellFormed = true := by decide

theorem witness_EncodeOfDecode : decode 0x5008 = .ok (.cksum 8) ∧ decode 0x4001 = .ok (.setack 1) := by decide

theorem witness_IllegalWordRaisesEill :
    (ConfigOk (stWord 0xB000).cfg ∧ (stWord 0xB000).inbox = .word 0xB000 :: [] ∧ IllegalWord 0xB000)
      ∧ (ConfigOk (stWord 0xA000).cfg ∧ (stWord 0xA000).inbox = .word 0xA000 :: [] ∧ ¬IllegalWord 0xA000) :=
  ⟨⟨test_tcfg_accepted, rfl, by decide⟩, test_tcfg_accepted, rfl, by decide⟩

theorem witness_StepRunsDecodedCommand :
    ConfigOk (stWord 0x10FF).cfg ∧ (stWord 0x10FF).inbox = .word 0x10FF :: [] ∧ decode 0x10FF = .ok (.push 0xFF) :=
  ⟨test_tcfg_accepted, rfl, by decide⟩

theorem witness_PlacedWordRunsNext : ConfigOk (st []).cfg ∧ (Instr.cksum 8).wellFormed = true :=
  ⟨test_tcfg_accepted, by decide⟩

theorem witness_IdleStepChangesNothing : ConfigOk (st [0x50]).cfg ∧ (st [0x50]).inbox = [] :=
  ⟨test_tcfg_accepted, rfl⟩

theorem witness_OnlyABadConfigurationStops :
    ¬ConfigOk (State.resetOf { Config.tcfg with bufCap := 16 }).cfg
      ∧ ConfigOk (State.resetOf { Config.tcfg with bufCap := 17 }).cfg :=
  ⟨test_small_buffer_refused, by decide⟩

theorem witness_EveryWordGetsOneResponse : (stWord 0x2000).Inv ∧ (stWord 0x2000).inbox = .word 0x2000 :: [] :=
  ⟨⟨test_tcfg_accepted, by decide, by decide⟩, rfl⟩

theorem witness_ResetValues :
    ConfigOk { (st [0x50] true) with inbox := [.reset] }.cfg
      ∧ { (st [0x50] true) with inbox := [.reset] }.inbox = .reset :: [] := ⟨test_tcfg_accepted, rfl⟩

theorem witness_FirstCommandAfterReset :
    ConfigOk Config.tcfg ∧ State.reset = State.resetOf Config.tcfg ∧ 1 ≤ (1 : Byte).toNat ∧ (8 : Byte).toNat ≤ 8 :=
  ⟨test_tcfg_accepted, rfl, by decide, by decide⟩

theorem witness_PushStoresOrIsFull :
    (st (List.replicate 32 0)).buf.length = (st (List.replicate 32 0)).cfg.bufCap
      ∧ (st (List.replicate 31 0)).buf.length ≠ (st (List.replicate 31 0)).cfg.bufCap := by decide

theorem witness_SetackWritesAckPending : (0x4002 : CmdWord).toNat / 256 = 0x40 ∧ 2 ≤ (0x4002 : CmdWord).toNat % 256 := by decide

theorem witness_FrameOnEmptyBuffer : (st []).buf = [] := by decide

theorem witness_FrameVersionTakesWholeBuffer :
    (st [0x4D] true).buf = 0x4D :: [] ∧ (st [0x4D] true).ackPending = true
      ∧ (0x4D : Byte) = (st [0x4D] true).cfg.versionSentinel := by decide

theorem witness_FrameModeTakesHeaderOnly :
    ConfigOk (st [0x41, 0x00] true).cfg ∧ (st [0x41, 0x00] true).buf = 0x41 :: [0x00]
      ∧ (st [0x41, 0x00] true).ackPending = true ∧ (0x41 : Byte) ∈ (st [0x41, 0x00] true).cfg.modeSentinels :=
  ⟨test_tcfg_accepted, rfl, rfl, by decide⟩

theorem witness_FrameEmptyHeader :
    ConfigOk (st [0x80, 0x08] true).cfg ∧ (st [0x80, 0x08] true).buf = 0x80 :: [0x08]
      ∧ (0x80 : Byte).toNat % 128 = 0 := ⟨test_tcfg_accepted, rfl, by decide⟩

theorem witness_FrameIncompleteLeavesState :
    (st [0x01]).buf = 0x01 :: [] ∧ DataHeader (st [0x01]) 0x01
      ∧ (st [0x01]).buf.length < 1 + ((0x01 : Byte).toNat % 128 + 7) / 8 := by decide

theorem witness_FrameDataRemovesOneFrame :
    (st [0x08, 0xAB, 0x10]).buf = 0x08 :: ([0xAB] ++ [0x10]) ∧ DataHeader (st [0x08, 0xAB, 0x10]) 0x08
      ∧ [(0xAB : Byte)].length = ((0x08 : Byte).toNat % 128 + 7) / 8 := by decide

theorem witness_FrameSplitsFrontOfBuffer :
    ∃ t e, exec .frame (st [0x08, 0xAB, 0x10]) = .next t
      ∧ t.outbox = (st [0x08, 0xAB, 0x10]).outbox ++ [⟨.ok, 0, 0, some e⟩] := ⟨_, _, rfl, rfl⟩

theorem witness_DataEventConsumedCount :
    ∃ t e, (st [0x01, 0xFF]).buf = 0x01 :: [0xFF] ∧ exec .frame (st [0x01, 0xFF]) = .next t
      ∧ t.outbox = (st [0x01, 0xFF]).outbox ++ [⟨.ok, 0, 0, some e⟩] ∧ (e.etype = .unknown ∨ e.etype = .family) :=
  ⟨_, _, rfl, rfl, rfl, .inl rfl⟩

theorem witness_FullBufferMakesProgress :
    ConfigOk (st (List.replicate 32 0x7F)).cfg
      ∧ (st (List.replicate 32 0x7F)).buf.length = (st (List.replicate 32 0x7F)).cfg.bufCap :=
  ⟨test_tcfg_accepted, by decide⟩

theorem witness_FrameIsDeterminedByItsInputs :
    (st [0x4D, 0x21] true).cfg = Config.tcfg ∧ (st [0x4D, 0x21] true).buf = [0x4D, 0x21]
      ∧ (st [0x4D, 0x21] true).ackPending = true := ⟨rfl, rfl, rfl⟩

theorem witness_MasterFlagDoesNotFrame :
    (st [0x7F, 0x11]).ackPending = false ∧ (st [0x7F, 0x11]).buf = 0x7F :: [0x11]
      ∧ (0xFF : Byte).toNat % 128 = (0x7F : Byte).toNat % 128 := by decide

theorem witness_SentinelsMatterOnlyWithAck :
    ∃ t, (st [0x4D, 0x21]).ackPending = false ∧ exec .frame (st [0x4D, 0x21]) = .next t := ⟨_, rfl, rfl⟩

theorem witness_FramedStreamIsPushedStream :
    (∀ i ∈ [Instr.push 0x08, .push 0xAB, .frame], i = .frame ∨ ∃ b, i = .push b)
      ∧ (st (List.replicate 30 0)).buf.length + (pushedBytes [Instr.push 0x08, .push 0xAB, .frame]).length
          ≤ (st (List.replicate 30 0)).cfg.bufCap := by
  refine ⟨?_, by decide⟩
  intro i hi
  simp only [List.mem_cons, List.not_mem_nil, or_false] at hi
  rcases hi with rfl | rfl | rfl
  · exact .inr ⟨_, rfl⟩
  · exact .inr ⟨_, rfl⟩
  · exact .inl rfl

theorem witness_NibbleOrder : t80[9]? = some 0x00 ∧ t80[0]? = some 0x1A := by decide

theorem witness_NibReadsOneNibble : (st []).fr = none ∧ ∃ f, stT80.fr = some f := ⟨rfl, _, rfl⟩

theorem witness_NsumSumsNibbles : (st []).fr = none ∧ ∃ f, stT80.fr = some f := ⟨rfl, _, rfl⟩

/-- No variant below 1 and above 8; no frame; T80 too short for variant 4 and long enough for variant 3 (V-C4, V-C6). -/
theorem witness_CksumComparesSumWithExpected :
    (0 : Byte).toNat < 1 ∧ 8 < (9 : Byte).toNat ∧ (st []).fr = none
      ∧ ∃ f, stT80.fr = some f
        ∧ (¬max (stT80.cfg.ck[(3 : CkSel)].n - 1) (max stT80.cfg.ck[(3 : CkSel)].hi stT80.cfg.ck[(3 : CkSel)].lo)
              < 2 * f.plen.toNat)
        ∧ max (stT80.cfg.ck[(2 : CkSel)].n - 1) (max stT80.cfg.ck[(2 : CkSel)].hi stT80.cfg.ck[(2 : CkSel)].lo)
              < 2 * f.plen.toNat :=
  ⟨by decide, by decide, rfl, _, rfl, by decide, by decide⟩

/-- A frame of 6 bytes, and one of 7. -/
theorem witness_TempAnswersSignedTenths :
    (st []).fr = none
      ∧ (∃ f, (st [] false (reg 0x30 .unknown [1, 2, 3, 4, 5, 6])).fr = some f ∧ f.plen.toNat < 7)
      ∧ ∃ f, (st [] false (reg 0x38 .unknown [1, 2, 3, 4, 5, 6, 8])).fr = some f ∧ 7 ≤ f.plen.toNat
          ∧ f.payload[6]? = some 8 := ⟨rfl, ⟨_, rfl, by decide⟩, _, rfl, by decide, rfl⟩

theorem witness_TemperatureReadsFourPlaces :
    nib t80 8 = nib (t80.set 9 7) 8 ∧ nib t80 10 = nib (t80.set 9 7) 10 ∧ nib t80 11 = nib (t80.set 9 7) 11
      ∧ (byteAt t80 6).getLsbD 3 = (byteAt (t80.set 9 7) 6).getLsbD 3 := by decide

/-- A frame of 1 byte, and one of 2. -/
theorem witness_KeyAnswersBothKeys :
    (st []).fr = none
      ∧ (∃ f, (st [] false (reg 0x08 .unknown [0x77])).fr = some f ∧ f.plen.toNat < 2)
      ∧ ∃ f, (st [] false (reg 0x10 .unknown [0x12, 0x34])).fr = some f ∧ 2 ≤ f.plen.toNat
          ∧ f.payload = 0x12 :: 0x34 :: [] := ⟨rfl, ⟨_, rfl, by decide⟩, _, rfl, by decide, rfl⟩

theorem witness_ReadersAreIdempotent :
    Instr.stat ≠ .frame ∧ Instr.stat ≠ .clear ∧ (∀ b, Instr.stat ≠ .push b) ∧ ∀ v, Instr.stat ≠ .setack v := by simp

/-- CKSUM 0 is EILL, NIB 0 without a frame is ERANGE. -/
theorem witness_ErrorsArePrecise :
    (∃ t, ConfigOk (stWord 0x5000).cfg ∧ (stWord 0x5000).inbox = .word 0x5000 :: [] ∧ step (stWord 0x5000) = .next t
        ∧ t.outbox = (stWord 0x5000).outbox ++ [⟨.eIll, 0, 0, none⟩])
      ∧ ∃ t, ConfigOk (stWord 0x6000).cfg ∧ (stWord 0x6000).inbox = .word 0x6000 :: [] ∧ step (stWord 0x6000) = .next t
        ∧ t.outbox = (stWord 0x6000).outbox ++ [⟨.eRange, 0, 0, none⟩] :=
  ⟨⟨_, test_tcfg_accepted, rfl, rfl, rfl⟩, _, test_tcfg_accepted, rfl, rfl, rfl⟩

theorem witness_StickyBitsRecordErrors :
    (∃ t r, ConfigOk (stWord 0x6000).cfg ∧ step (stWord 0x6000) = .next t ∧ (stWord 0x6000).inbox = .word 0x6000 :: []
        ∧ t.outbox = (stWord 0x6000).outbox ++ [r])
      ∧ ∃ t, ConfigOk { (st []) with inbox := [.reset] }.cfg ∧ step { (st []) with inbox := [.reset] } = .next t
        ∧ { (st []) with inbox := [.reset] }.inbox = .reset :: [] :=
  ⟨⟨_, _, test_tcfg_accepted, rfl, rfl, rfl⟩, _, test_tcfg_accepted, rfl, rfl⟩

theorem witness_FramingCommandsRaiseNothing :
    Instr.frame = .frame ∨ Instr.frame = .clear ∨ Instr.frame = .stat ∨ (∃ b, Instr.frame = .push b)
      ∨ ∃ v, Instr.frame = .setack v := .inl rfl

theorem witness_OnlyNamedCommandsWrite :
    ∃ t, exec .frame (st [0x00]) = .next t ∧ t.buf ≠ (st [0x00]).buf ∧ t.fr ≠ (st [0x00]).fr
      ∧ ∃ u, exec (.setack 1) (st []) = .next u ∧ u.ackPending ≠ (st []).ackPending :=
  ⟨_, rfl, by decide, by decide, _, rfl, by decide⟩

/-- An exact row, a masked row, no row (V-K1, V-K2, V-K4). -/
theorem witness_LookupTriesExactThenMasked :
    ConfigOk Config.tcfg ∧ (0x1A2D50, ⟨0, some 1, some .tempHum⟩) ∈ Config.tcfg.table
      ∧ ((∀ e, (0x9AEC68, e) ∉ Config.tcfg.table)
          ∧ (BitVec.ofNat 24 ((0x9AEC68 : Key).toNat % 2 ^ 20), ⟨1, none, some .dateTime⟩) ∈ Config.tcfg.table)
      ∧ (∀ e, (0x1A2D51, e) ∉ Config.tcfg.table)
      ∧ ∀ e, (BitVec.ofNat 24 ((0x1A2D51 : Key).toNat % 2 ^ 20), e) ∉ Config.tcfg.table := by
  refine ⟨test_tcfg_accepted, by decide, ⟨?_, by decide⟩, ?_, ?_⟩ <;> simp [Config.tcfg]

theorem witness_DecodeReadsInsidePayload :
    ConfigOk Config.tcfg ∧ (80 : BitVec 7) ≠ 0 ∧ t80.length = ((80 : BitVec 7).toNat + 7) / 8
      ∧ lookupEntry Config.tcfg (dispatchKey t80 80) = some (⟨0, some 1, some .tempHum⟩, .exact) :=
  ⟨test_tcfg_accepted, by decide, by decide, by decide⟩

/-- One byte; a miss; no method; a failed checksum; a passed one (V-D10, V-F7, V-D5, V-D2, V-D1). -/
theorem witness_DecodePipelineOutcomes :
    [(0x77 : Byte)].length < 2
      ∧ (2 ≤ [(0x12 : Byte), 0x34].length ∧ lookupEntry Config.tcfg (dispatchKey [0x12, 0x34] 9) = none)
      ∧ (lookupEntry Config.tcfg (dispatchKey [0xFC, 0xC3] 80) = some (⟨2, none, none⟩, .masked))
      ∧ (lookupEntry Config.tcfg (dispatchKey t80 80) = some (⟨0, some 1, some .tempHum⟩, .exact)
          ∧ ckPass Config.tcfg.ck[(1 : CkSel)] (t80.set 4 0x42) = false
          ∧ ckPass Config.tcfg.ck[(1 : CkSel)] t80 = true ∧ t80[3]? = some 0xEC) := by decide

theorem witness_ThgrTelegramRoutes :
    ConfigOk (st (0x50 :: t80)).cfg ∧ DataHeader (st (0x50 :: t80)) 0x50
      ∧ [(0x32 : Byte), 0x21, 0x08, 0x44, 0x43, 0x00].length = 6
      ∧ (st (0x50 :: t80)).buf
          = 0x50 :: 0x1A :: 0x2D :: 0x10 :: 0xEC :: ([0x32, 0x21, 0x08, 0x44, 0x43, 0x00] ++ [])
      ∧ ckPass (st (0x50 :: t80)).cfg.ck[1] t80 = true
      ∧ ckPass (st (0x50 :: t80)).cfg.ck[1] (t80.set 4 0x42) = false :=
  ⟨test_tcfg_accepted, by decide, rfl, rfl, by decide, by decide⟩

theorem witness_DateTimeTelegramRoutes :
    ConfigOk (st (0x68 :: 0x9A :: 0xEC :: List.replicate 11 0)).cfg
      ∧ DataHeader (st (0x68 :: 0x9A :: 0xEC :: List.replicate 11 0)) 0x68
      ∧ (List.replicate 11 (0 : Byte)).length = 11
      ∧ (st (0x68 :: 0x9A :: 0xEC :: List.replicate 11 0)).buf
          = 0x68 :: 0x9A :: 0xEC :: (List.replicate 11 0 ++ []) :=
  ⟨test_tcfg_accepted, by decide, rfl, rfl⟩

theorem witness_ExtractorReadsOnlyRequiredBytes :
    ConfigOk Config.tcfg ∧ reqBytes? Config.tcfg .tempHum = some 7 ∧ 7 ≤ t80.length
      ∧ t80.take 7 = (t80.set 9 7).take 7 := ⟨test_tcfg_accepted, rfl, by decide, by decide⟩

/-- Two payloads of 10 bytes that agree on all 20 nibbles but one agree on every nibble but that one. -/
theorem agree_of_twenty (p q : List Byte) (j : Nat) (hp : p.length = 10) (hq : q.length = 10)
    (h : ∀ i < 20, i ≠ j → nib q i = nib p i) : ∀ i, i ≠ j → nib q i = nib p i := by
  intro i hi
  by_cases h20 : i < 20
  · exact h i h20 hi
  · rw [nib_beyond p i (by omega), nib_beyond q i (by omega)]

/-- A corrupted nibble in the run (8), at CK_HI (16), at CK_LO (17), and elsewhere (19). -/
theorem witness_SingleNibbleCorruptionDetected :
    (CkTripleOk ⟨16, 16, 17⟩ ∧ ckInRange ⟨16, 16, 17⟩ t80.length = true ∧ ckPass ⟨16, 16, 17⟩ t80 = true)
      ∧ (nib (t80.set 4 0x42) 8 ≠ nib t80 8 ∧ ∀ i, i ≠ 8 → nib (t80.set 4 0x42) i = nib t80 i)
      ∧ (nib (t80.set 8 0x53) 16 ≠ nib t80 16 ∧ ∀ i, i ≠ 16 → nib (t80.set 8 0x53) i = nib t80 i)
      ∧ (nib (t80.set 8 0x44) 17 ≠ nib t80 17 ∧ ∀ i, i ≠ 17 → nib (t80.set 8 0x44) i = nib t80 i)
      ∧ (nib (t80.set 9 0x07) 19 ≠ nib t80 19 ∧ ∀ i, i ≠ 19 → nib (t80.set 9 0x07) i = nib t80 i) :=
  ⟨by decide, ⟨by decide, agree_of_twenty _ _ _ rfl rfl (by decide)⟩, ⟨by decide, agree_of_twenty _ _ _ rfl rfl (by decide)⟩,
    ⟨by decide, agree_of_twenty _ _ _ rfl rfl (by decide)⟩, ⟨by decide, agree_of_twenty _ _ _ rfl rfl (by decide)⟩⟩

theorem witness_ResetMeetsInvariant : ConfigOk Config.tcfg := test_tcfg_accepted

theorem witness_StepKeepsInvariant : (stWord 0x10AB).Inv ∧ ∃ t, step (stWord 0x10AB) = .next t :=
  ⟨⟨test_tcfg_accepted, by decide, by decide⟩, _, rfl⟩

theorem witness_StepKeepsResponsesWellFormed :
    (stWord 0x6000).Inv ∧ (stWord 0x6000).OutboxOk ∧ ∃ t, step (stWord 0x6000) = .next t :=
  ⟨⟨test_tcfg_accepted, by decide, by decide⟩, by decide, _, rfl⟩

end Sys2Proof.Tests
end

section
/-! The sticky error bits (spec 10_state.md R27): every command word gives one response, and ERR_ILL and
ERR_RANGE record exactly the error that response reports. -/

namespace Sys2Proof.Proofs

open Sys2Proof Sys2Proof.Machine

/-- `t` has one response more than `s`, and its sticky bits are those of `s` with the bit of that
response's error set (R27). -/
def RecordsAnswer (s t : State) : Prop :=
  ∃ r : Response, t.outbox = s.outbox ++ [r] ∧ t.errIll = (s.errIll || decide (r.st = .eIll))
    ∧ t.errRange = (s.errRange || decide (r.st = .eRange))

/-! ### The shared operations -/

/-- `s'` is what a command made of `s` before it answers. -/
theorem recordsAnswer_respond {s s' : State} {st : Status} {d0 d1 : DataWord} (hout : s'.outbox = s.outbox)
    (hill : s'.errIll = s.errIll) (hrange : s'.errRange = s.errRange) (hst : st ≠ .eIll ∧ st ≠ .eRange) :
    RecordsAnswer s (s'.respond st d0 d1) :=
  ⟨⟨st, d0, d1, none⟩, by simp [hout], by simp [hill, hst.1], by simp [hrange, hst.2]⟩

theorem recordsAnswer_raise (s : State) (c : ErrorCause) : RecordsAnswer s (s.raise c) := by
  cases c with
  | eIll => exact ⟨⟨.eIll, 0, 0, none⟩, by simp [State.raise_eIll]⟩
  | eRange => exact ⟨⟨.eRange, 0, 0, none⟩, by simp [State.raise_eRange]⟩

theorem recordsAnswer_readFrame (s : State) (g : FrameReg → Bool) (d0 d1 : FrameReg → DataWord) :
    RecordsAnswer s (s.readFrame g d0 d1) := by
  obtain ⟨herr, -⟩ | ⟨f, -, -, hok⟩ := s.readFrame_cases g d0 d1
  · exact herr ▸ recordsAnswer_raise s .eRange
  · exact hok ▸ recordsAnswer_respond rfl rfl rfl (by decide)

theorem recordsAnswer_deliver (s : State) (hdr : Byte) (n : Nat) (p : List Byte) (dr : DecodeResult) :
    RecordsAnswer s (s.deliver hdr n p dr) :=
  ⟨⟨.ok, 0, 0, some (mkEvent hdr n p dr)⟩, by simp [State.deliver_eq]⟩

theorem recordsAnswer_frameStep (s : State) : RecordsAnswer s s.frameStep := by
  obtain ⟨-, hs⟩ | ⟨hdr, rest, -, ⟨-, hs⟩ | ⟨-, hs⟩ | ⟨-, hs⟩ | ⟨-, -, hs⟩ | ⟨-, -, hs⟩⟩ := s.frameStep_cases
  · exact hs ▸ recordsAnswer_respond rfl rfl rfl (by decide)
  · exact hs ▸ recordsAnswer_deliver ..
  · exact hs ▸ recordsAnswer_deliver ..
  · exact hs ▸ recordsAnswer_deliver ..
  · exact hs ▸ recordsAnswer_respond rfl rfl rfl (by decide)
  · exact hs ▸ recordsAnswer_deliver ..

/-! ### Commands and words -/

/-- Every command, in every state, has a next state; it answers once and records the error it answers. -/
theorem exec_recordsAnswer (i : Instr) (s : State) : ∃ t, exec i s = .next t ∧ RecordsAnswer s t := by
  cases i with
  | push b =>
    by_cases hfull : s.full = true
    · exact ⟨_, if_pos hfull, recordsAnswer_respond rfl rfl rfl (by decide)⟩
    · exact ⟨_, if_neg hfull, recordsAnswer_respond rfl rfl rfl (by decide)⟩
  | cksum k =>
    cases hk : ckSelOf? k with
    | none => exact ⟨_, by simp only [exec, execCksum, hk], recordsAnswer_raise s .eIll⟩
    | some v =>
      simp only [exec, execCksum, hk]
      exact ⟨_, rfl, recordsAnswer_readFrame ..⟩
  | frame => exact ⟨_, rfl, recordsAnswer_frameStep s⟩
  | clear | setack v | stat => exact ⟨_, rfl, recordsAnswer_respond rfl rfl rfl (by decide)⟩
  | nib j | nsum n | temp | key => exact ⟨_, rfl, recordsAnswer_readFrame ..⟩

/-- The same for every word, legal or not (R67, R164). -/
theorem runWord_recordsAnswer (w : CmdWord) (s : State) : ∃ t, runWord w s = .next t ∧ RecordsAnswer s t := by
  cases hw : decode w with
  | ok i => simpa only [runWord, hw] using exec_recordsAnswer i s
  | error x => exact ⟨_, by simp only [runWord, hw], recordsAnswer_raise s .eIll⟩

/-- The sticky bits after an answer, in terms of whichever response is known to have been appended. -/
theorem RecordsAnswer.sticky {s t : State} {r : Response} (h : RecordsAnswer s t) (ho : t.outbox = s.outbox ++ [r]) :
    t.errIll = (s.errIll || decide (r.st = .eIll)) ∧ t.errRange = (s.errRange || decide (r.st = .eRange)) := by
  obtain ⟨r', ho', hsticky⟩ := h
  have hr : r' = r := by simpa [ho'] using ho
  exact hr ▸ hsticky

/-- Settles O40: a word's step is its `runWord`, which records its answer; the reset input is `applyReset`. -/
theorem stickyBitsRecordErrors : Obligations.StickyBitsRecordErrors := by
  intro s t rest hc hstep
  refine ⟨fun w r hi ho => ?_, fun hi => ?_⟩
  · obtain ⟨t', hrun, hrec⟩ := runWord_recordsAnswer w { s with inbox := rest }
    have hnext : runWord w { s with inbox := rest } = .next t := (step_cons s _ rest hc hi).symm.trans hstep
    obtain rfl : t' = t := by simpa [hrun] using hnext
    exact hrec.sticky ho
  · have hnext : runInput .reset { s with inbox := rest } = .next t := (step_cons s _ rest hc hi).symm.trans hstep
    obtain rfl : ({ s with inbox := rest } : State).applyReset = t := by simpa [runInput] using hnext
    exact ⟨State.applyReset_errIll _, State.applyReset_errRange _⟩

end Sys2Proof.Proofs
end

section
/-! The command word (spec 30_encoding.md R66, R67, R71). The decoder accepts a word exactly when it is the
word of a well-formed command, and then gives that command; it refuses exactly the words R67 lists. -/

namespace Sys2Proof.Proofs

open Sys2Proof Sys2Proof.Machine Sys2Proof.Laws

/-! ### The fields of a word -/

theorem toNat_opField (w : CmdWord) : (opField w).toNat = w.toNat / 4096 := by
  have hw := w.isLt
  simp only [opField, BitVec.extractLsb'_toNat, Nat.shiftRight_eq_div_pow]
  omega

theorem toNat_rsvField (w : CmdWord) : (rsvField w).toNat = w.toNat / 256 % 16 := by
  simp only [rsvField, BitVec.extractLsb'_toNat, Nat.shiftRight_eq_div_pow]

theorem toNat_opdField (w : CmdWord) : (opdField w).toNat = w.toNat % 256 := by
  simp only [opdField, BitVec.extractLsb'_toNat, Nat.shiftRight_zero]

/-- OP, RSV and OPD are the whole word (R66). -/
theorem append_fields (w : CmdWord) : opField w ++ rsvField w ++ opdField w = w := by
  apply BitVec.eq_of_toNat_eq
  rw [toNat_append_eq_add, toNat_append_eq_add, toNat_opField, toNat_rsvField, toNat_opdField]
  omega

theorem encode_eq_iff (i : Instr) (w : CmdWord) :
    encode i = w ↔ rsvField w = 0 ∧ i.opcode = opField w ∧ i.operand = opdField w := by
  constructor
  · rintro rfl
    obtain ⟨hop, hrsv, hopd⟩ := OpcodeField.fields_of_append i.opcode i.operand
    exact ⟨hrsv, hop.symm, hopd.symm⟩
  · rintro ⟨hrsv, hop, hopd⟩
    rw [encode, hop, hopd, ← hrsv, append_fields]

theorem rsvField_eq_zero_iff (w : CmdWord) : rsvField w = 0 ↔ w.toNat / 256 % 16 = 0 := by
  rw [← toNat_rsvField]
  exact BitVec.toNat_inj.symm

theorem byte_eq_zero_iff (opd : Byte) : opd = 0 ↔ opd.toNat = 0 := BitVec.toNat_inj.symm

/-- OPD[7:1] is 0 (R67), in numbers. -/
theorem upperBits_eq_zero_iff (opd : Byte) : opd.extractLsb' 1 7 = 0 ↔ opd.toNat / 2 = 0 := by
  have h := opd.isLt
  rw [← BitVec.toNat_inj, BitVec.extractLsb'_toNat, Nat.shiftRight_eq_div_pow]
  change opd.toNat / 2 % 128 = 0 ↔ _
  omega

/-- OPD[7:1] and OPD[0] are the whole operand. -/
theorem append_upperBits (opd : Byte) : opd.extractLsb' 1 7 ++ opd.extractLsb' 0 1 = opd :=
  (BitVec.extractLsb'_append_extractLsb'_eq_extractLsb' (Nat.zero_add 1).symm).trans BitVec.extractLsb'_eq_self

/-! ### What the parts of the decoder accept and refuse: each is one check of the operand -/

theorem check_ok_iff {p : Prop} [Decidable p] {i j : Instr} {x : Illegal} :
    (if p then .ok i else .error x : Except Illegal Instr) = .ok j ↔ p ∧ i = j := by
  split <;> simp [*]

theorem check_error_iff {p : Prop} [Decidable p] {i : Instr} {x : Illegal} :
    (∃ y, (if p then .ok i else .error x : Except Illegal Instr) = .error y) ↔ ¬p := by
  split <;> simp [*]

theorem decodeBare_ok_iff (opd : Byte) (i j : Instr) : decodeBare opd i = .ok j ↔ opd = 0 ∧ i = j := check_ok_iff

theorem decodeBare_error_iff (opd : Byte) (i : Instr) : (∃ x, decodeBare opd i = .error x) ↔ opd.toNat ≠ 0 :=
  check_error_iff.trans (not_congr (byte_eq_zero_iff opd))

theorem decodeSetack_ok_iff (opd : Byte) (i : Instr) :
    decodeSetack opd = .ok i ↔ opd.extractLsb' 1 7 = 0 ∧ .setack (opd.extractLsb' 0 1) = i := check_ok_iff

theorem decodeSetack_error_iff (opd : Byte) : (∃ x, decodeSetack opd = .error x) ↔ opd.toNat / 2 ≠ 0 :=
  check_error_iff.trans (not_congr (upperBits_eq_zero_iff opd))

theorem decodeCksum_ok_iff (opd : Byte) (i : Instr) :
    decodeCksum opd = .ok i ↔ (1 ≤ opd.toNat ∧ opd.toNat ≤ 8) ∧ .cksum opd = i := check_ok_iff

theorem decodeCksum_error_iff (opd : Byte) :
    (∃ x, decodeCksum opd = .error x) ↔ ¬(1 ≤ opd.toNat ∧ opd.toNat ≤ 8) := check_error_iff

/-! ### The opcode map: a command is its opcode and its operand -/

theorem decodeOp_opcode_operand (i : Instr) (hwf : i.wellFormed = true) : decodeOp i.opcode i.operand = .ok i := by
  cases i with
  | push b | nib j | nsum n => rfl
  | frame | clear | temp | key | stat => exact (decodeBare_ok_iff ..).mpr ⟨rfl, rfl⟩
  | setack v =>
    exact (decodeSetack_ok_iff ..).mpr
      ⟨BitVec.extractLsb'_append_eq_left, congrArg Instr.setack BitVec.extractLsb'_append_eq_right⟩
  | cksum k => exact (decodeCksum_ok_iff ..).mpr ⟨of_decide_eq_true hwf, rfl⟩

theorem fields_of_decodeOp_ok (op : BitVec 4) (opd : Byte) (i : Instr) (h : decodeOp op opd = .ok i) :
    i.wellFormed = true ∧ i.opcode = op ∧ i.operand = opd := by
  rw [decodeOp] at h
  split at h
  case h_1 hop | h_6 hop | h_7 hop =>
    cases h
    exact ⟨rfl, BitVec.eq_of_toNat_eq hop.symm, rfl⟩
  case h_2 hop | h_3 hop | h_8 hop | h_9 hop | h_10 hop =>
    obtain ⟨rfl, rfl⟩ := (decodeBare_ok_iff ..).mp h
    exact ⟨rfl, BitVec.eq_of_toNat_eq hop.symm, rfl⟩
  case h_4 hop =>
    obtain ⟨hupper, rfl⟩ := (decodeSetack_ok_iff ..).mp h
    exact ⟨rfl, BitVec.eq_of_toNat_eq hop.symm, by rw [Instr.operand, ← hupper, append_upperBits]⟩
  case h_5 hop =>
    obtain ⟨hk, rfl⟩ := (decodeCksum_ok_iff ..).mp h
    exact ⟨decide_eq_true hk, BitVec.eq_of_toNat_eq hop.symm, rfl⟩
  case h_11 => cases h

theorem decodeOp_ok_iff (op : BitVec 4) (opd : Byte) (i : Instr) :
    decodeOp op opd = .ok i ↔ i.wellFormed = true ∧ i.opcode = op ∧ i.operand = opd := by
  refine ⟨fields_of_decodeOp_ok op opd i, ?_⟩
  rintro ⟨hwf, rfl, rfl⟩
  exact decodeOp_opcode_operand i hwf

/-- The words the opcode map refuses (R67), once RSV is 0. -/
theorem decodeOp_error_iff (op : BitVec 4) (opd : Byte) :
    (∃ x, decodeOp op opd = .error x) ↔
      (op.toNat = 0 ∨ 11 ≤ op.toNat) ∨ (op.toNat ∈ [2, 3, 8, 9, 10] ∧ opd.toNat ≠ 0)
        ∨ (op.toNat = 4 ∧ opd.toNat / 2 ≠ 0) ∨ (op.toNat = 5 ∧ ¬(1 ≤ opd.toNat ∧ opd.toNat ≤ 8)) := by
  rw [decodeOp]
  split
  case h_1 hop | h_6 hop | h_7 hop => simp [hop]
  case h_2 hop | h_3 hop | h_8 hop | h_9 hop | h_10 hop => rw [decodeBare_error_iff]; simp [hop]
  case h_4 hop => rw [decodeSetack_error_iff]; simp [hop]
  case h_5 hop => rw [decodeCksum_error_iff]; simp [hop]
  case h_11 =>
    have hreserved : op.toNat = 0 ∨ 11 ≤ op.toNat := by grind
    exact iff_of_true ⟨_, rfl⟩ (.inl hreserved)

/-! ### The decoder -/

/-- The decoder is the inverse of the encoder, on exactly the words of well-formed commands (R66, R71). -/
theorem decode_ok_iff (w : CmdWord) (i : Instr) : decode w = .ok i ↔ i.wellFormed = true ∧ encode i = w := by
  rw [encode_eq_iff, decode]
  by_cases hrsv : rsvField w = 0
  · simp only [hrsv, if_true, true_and, decodeOp_ok_iff]
  · simp only [hrsv, if_false, false_and, and_false, reduceCtorEq]

/-- The words the decoder refuses are R67's. -/
theorem decode_error_iff (w : CmdWord) : (∃ x, decode w = .error x) ↔ IllegalWord w := by
  rw [IllegalWord, ← toNat_opField, ← toNat_opdField, Ne, ← rsvField_eq_zero_iff, decode]
  by_cases hrsv : rsvField w = 0
  · simp only [hrsv, if_true, not_true, false_or, decodeOp_error_iff]
  · rw [if_neg hrsv]
    exact iff_of_true ⟨_, rfl⟩ (.inr (.inl hrsv))

/-- Settles O1: the word of a well-formed command is accepted, as that command. -/
theorem decodeOfEncode : Obligations.DecodeOfEncode := fun i hwf =>
  (decode_ok_iff (encode i) i).mpr ⟨hwf, rfl⟩

/-- Settles O2: no other word is accepted. -/
theorem encodeOfDecode : Obligations.EncodeOfDecode := fun w i h => (decode_ok_iff w i).mp h

/-- Settles O4: each word is the `encode` of its command, which the decoder reads back. -/
theorem opcodeMapWordsDecode : Obligations.OpcodeMapWordsDecode :=
  ⟨decodeOfEncode (.push 0xAB) rfl, decodeOfEncode .frame rfl, decodeOfEncode .clear rfl,
    decodeOfEncode (.setack 1) rfl, decodeOfEncode (.cksum 2) rfl, decodeOfEncode (.nib 10) rfl,
    decodeOfEncode (.nsum 16) rfl, decodeOfEncode .temp rfl, decodeOfEncode .key rfl, decodeOfEncode .stat rfl⟩

/-! ### The step on a word -/

/-- Settles O5: the step takes the word, and running a word is running the command it decodes to. -/
theorem stepRunsDecodedCommand : Obligations.StepRunsDecodedCommand := by
  intro s w rest i hc hi hw
  rw [step_cons s _ rest hc hi, runInput, runWord, hw]

/-- Settles O3: the decoder refuses exactly the illegal words, and a refused word's run raises EILL. -/
theorem illegalWordRaisesEill : Obligations.IllegalWordRaisesEill := by
  intro s w rest hc hi
  rw [← decode_error_iff]
  constructor
  · rintro ⟨x, hw⟩
    rw [step_cons s _ rest hc hi, runInput, runWord, hw, State.raise_eIll]
  · intro hlegal
    cases hw : decode w with
    | ok i => exact ⟨i, rfl, stepRunsDecodedCommand s w rest i hc hi hw⟩
    | error x => exact absurd ⟨x, hw⟩ hlegal

end Sys2Proof.Proofs
end

section
/-! The buffer commands PUSH, CLEAR, SETACK and STAT (spec 40_framer.md R80, R90, R92, R93): their words in
numbers, and their whole next states. -/

namespace Sys2Proof.Proofs

open Sys2Proof Sys2Proof.Machine Sys2Proof.Laws

/-! ### PUSH (R80) -/

/-- A command's word in numbers: OP in the top digit, OPD in the low byte (R66). -/
theorem toNat_encode (i : Instr) : (encode i).toNat = i.opcode.toNat * 0x1000 + i.operand.toNat := by
  simp only [encode, toNat_append_eq_add, BitVec.ofNat_eq_ofNat, BitVec.toNat_ofNat, Nat.zero_mod]
  omega

theorem full_iff (s : State) : s.full = true ↔ s.buf.length = s.cfg.bufCap := decide_eq_true_iff

/-- Settles O12: FULL decides which of PUSH's two answers is given. -/
theorem pushStoresOrIsFull : Obligations.PushStoresOrIsFull := fun s b =>
  ⟨by simpa [Instr.opcode, Instr.operand] using toNat_encode (.push b), fun hcap => if_pos ((full_iff s).mpr hcap),
    fun hcap => if_neg (mt (full_iff s).mp hcap)⟩

/-! ### CLEAR (R90) -/

/-- Settles O13: CLEAR is `BufClear` and a response, whatever the state. -/
theorem clearEmptiesBuffer : Obligations.ClearEmptiesBuffer := fun _ => ⟨rfl, rfl⟩

/-! ### SETACK (R92) -/

/-- The run of an illegal word is EILL and nothing else (R67). -/
theorem runWord_of_illegalWord {w : CmdWord} (hw : IllegalWord w) (s : State) : runWord w s = .next s.gaveEill := by
  obtain ⟨x, hx⟩ := (decode_error_iff w).mpr hw
  rw [runWord, hx, State.raise_eIll]

/-- Settles O14: each of the two legal words has its meaning; a greater operand has OPD[7:1] not 0. -/
theorem setackWritesAckPending : Obligations.SetackWritesAckPending := by
  refine fun s => ⟨rfl, rfl, rfl, rfl, fun w hop hopd => runWord_of_illegalWord ?_ s⟩
  have hupper : w.toNat / 4096 = 4 ∧ w.toNat % 256 / 2 ≠ 0 := by omega
  exact .inr (.inr (.inr (.inl hupper)))

/-! ### STAT (R93) -/

/-- The STATUS word in numbers, FULL as a bit (R26). -/
theorem toNat_status (s : State) :
    s.status.toNat = s.errRange.toNat * 2 ^ 20 + s.errIll.toNat * 2 ^ 19 + s.fr.isSome.toNat * 2 ^ 18
      + s.ackPending.toNat * 2 ^ 17 + s.full.toNat * 2 ^ 16 + s.buf.length % 2 ^ 16 := by
  simp only [State.status, State.frValid, toNat_append_eq_add, BitVec.toNat_ofBool, BitVec.ofNat_eq_ofNat,
    BitVec.toNat_ofNat, Nat.zero_mod]
  omega

theorem toNat_full_mul (s : State) (n : Nat) :
    s.full.toNat * n = if s.buf.length = s.cfg.bufCap then n else 0 := by
  simp only [← full_iff]
  cases s.full <;> simp

/-- Settles O15: STAT answers the STATUS word, whose fields do not overlap. -/
theorem statReadsStatusWord : Obligations.StatReadsStatusWord := fun s =>
  ⟨rfl, s.status, rfl, by rw [toNat_status, toNat_full_mul]⟩

end Sys2Proof.Proofs
end

section
/-! FRAME (spec 40_framer.md R81 to R89, R94 to R98): one equation for each outcome of the framing unit, what
delivering a frame does to the state, and from these what each class of header gives. -/

namespace Sys2Proof.Proofs

open Sys2Proof Sys2Proof.Machine

/-! ### The header byte in numbers (30_encoding.md R60) -/

theorem hdrM_eq_decide (hdr : Byte) : hdrM hdr = decide (128 ≤ hdr.toNat) := BitVec.msb_eq_decide hdr

theorem hdrBits_eq_ofNat (hdr : Byte) : hdrBits hdr = BitVec.ofNat 7 hdr.toNat :=
  BitVec.eq_of_toNat_eq (hdrBits_toNat hdr)

theorem payloadBytes_hdrBits (hdr : Byte) : payloadBytes (hdrBits hdr).toNat = (hdr.toNat % 128 + 7) / 8 := by
  rw [hdrBits_toNat, payloadBytes]

/-! ### Which header is of which class (R63) -/

section Classify
variable {c : Config} {ack : Bool} {hdr : Byte}

theorem classify_versionSentinel (hack : ack = true) (hv : hdr = c.versionSentinel) : classify c ack hdr = .version :=
  if_pos ⟨hack, hv⟩

/-- The version sentinel is tested first, but no mode sentinel equals it (R8). -/
theorem classify_modeSentinel (hc : SentinelsOk c) (hack : ack = true) (hm : hdr ∈ c.modeSentinels) :
    classify c ack hdr = .mode := by
  obtain ⟨-, hdisjoint, -, -⟩ := hc
  have hv : hdr ≠ c.versionSentinel := by
    rintro rfl
    exact hdisjoint hm
  exact (if_neg fun h => hv h.2).trans (if_pos ⟨hack, hm⟩)

/-- The sentinels are tested first, but none has BITS = 0 (R8). -/
theorem classify_emptyHeader (hc : SentinelsOk c) (h0 : hdrBits hdr = 0) : classify c ack hdr = .empty := by
  obtain ⟨hversion, -, -, hmodes⟩ := hc
  have hv : hdr ≠ c.versionSentinel := by
    rintro rfl
    exact hversion h0
  exact (if_neg fun h => hv h.2).trans ((if_neg fun h => hmodes hdr h.2 h0).trans (if_pos h0))

end Classify

theorem classify_dataHeader {s : State} {hdr : Byte} (h : DataHeader s hdr) :
    classify s.cfg s.ackPending hdr = .data := by
  obtain ⟨hv, hm, h0⟩ := h
  exact (if_neg hv).trans ((if_neg hm).trans (if_neg (mt (hdrBits_eq_zero hdr).mp h0)))

/-! ### One equation per outcome (R81 to R87) -/

section Outcomes
variable {s : State} {hdr : Byte} {rest : List Byte}

theorem frameStep_nil (hb : s.buf = []) : s.frameStep = s.respond .noMsg 0 0 := by
  rw [State.frameStep, hb]

theorem frameStep_cons (hb : s.buf = hdr :: rest) : s.frameStep = s.frameHeader hdr rest := by
  rw [State.frameStep, hb]

theorem frameStep_version (hb : s.buf = hdr :: rest) (hk : classify s.cfg s.ackPending hdr = .version) :
    s.frameStep = s.deliver hdr (rest.length + 1) rest (noDecode .version) := by
  rw [frameStep_cons hb, State.frameHeader, hk, hb, List.length_cons]

theorem frameStep_mode (hb : s.buf = hdr :: rest) (hk : classify s.cfg s.ackPending hdr = .mode) :
    s.frameStep = s.deliver hdr 1 [] (noDecode .mode) := by
  rw [frameStep_cons hb, State.frameHeader, hk]

theorem frameStep_empty (hb : s.buf = hdr :: rest) (hk : classify s.cfg s.ackPending hdr = .empty) :
    s.frameStep = s.deliver hdr 1 [] (noDecode .empty) := by
  rw [frameStep_cons hb, State.frameHeader, hk]

theorem frameStep_data (hb : s.buf = hdr :: rest) (hk : classify s.cfg s.ackPending hdr = .data) :
    s.frameStep = s.frameData hdr rest := by
  rw [frameStep_cons hb, State.frameHeader, hk]

theorem frameStep_incomplete (hb : s.buf = hdr :: rest) (hk : classify s.cfg s.ackPending hdr = .data)
    (hl : rest.length < payloadBytes (hdrBits hdr).toNat) :
    s.frameStep = s.respond .incomplete (zext32 (1 + payloadBytes (hdrBits hdr).toNat)) (zext32 (rest.length + 1)) := by
  rw [frameStep_data hb hk, State.frameData, hb, List.length_cons, if_pos (by omega)]

theorem frameStep_complete (hb : s.buf = hdr :: rest) (hk : classify s.cfg s.ackPending hdr = .data)
    (hl : payloadBytes (hdrBits hdr).toNat ≤ rest.length) :
    s.frameStep = s.deliver hdr (1 + payloadBytes (hdrBits hdr).toNat) (rest.take (payloadBytes (hdrBits hdr).toNat))
      (decodeFrame s.cfg (hdrBits hdr) (rest.take (payloadBytes (hdrBits hdr).toNat))) := by
  rw [frameStep_data hb hk, State.frameData, hb, List.length_cons, if_neg (by omega)]

end Outcomes

/-! ### The state and the event after a frame (R88, R89) -/

theorem exec_frame_of_respond {s : State} {st : Status} {d0 d1 : DataWord} (hs : s.frameStep = s.respond st d0 d1) :
    exec .frame s = .next (s.gave st d0 d1) := congrArg _ hs

/-- `b` is what the removed bytes leave in BUF. -/
theorem exec_frame_of_deliver {s : State} {hdr : Byte} {n : Nat} {p b : List Byte} {dr : DecodeResult}
    (hs : s.frameStep = s.deliver hdr n p dr) (hb : s.buf.drop n = b) :
    exec .frame s = .next ({ s with buf := b, fr := some ⟨hdr, dr.etype, p, BitVec.ofNat 16 p.length⟩ }.gaveEvent
      (mkEvent hdr n p dr)) := by
  subst hb
  exact congrArg _ hs

theorem mkEvent_mflag (hdr : Byte) (n : Nat) (p : List Byte) (dr : DecodeResult) :
    (mkEvent hdr n p dr).mflag = decide (128 ≤ hdr.toNat) := hdrM_eq_decide hdr

theorem mkEvent_bits_toNat (hdr : Byte) (n : Nat) (p : List Byte) (dr : DecodeResult) :
    (mkEvent hdr n p dr).bits.toNat = hdr.toNat % 128 := hdrBits_toNat hdr

theorem mkEvent_consumed_toNat (hdr : Byte) {n : Nat} (p : List Byte) (dr : DecodeResult) (hn : n < 2 ^ 16) :
    (mkEvent hdr n p dr).consumed.toNat = n := Nat.mod_eq_of_lt hn

theorem mkEvent_plen_toNat (hdr : Byte) (n : Nat) {p : List Byte} (dr : DecodeResult) (hp : p.length < 2 ^ 16) :
    (mkEvent hdr n p dr).plen.toNat = p.length := Nat.mod_eq_of_lt hp

/-- The event FRAME is known to have answered is the delivered frame's. -/
theorem event_eq_of_deliver {s : State} {hdr : Byte} {n : Nat} {p : List Byte} {dr : DecodeResult} {e : Event}
    (hs : s.frameStep = s.deliver hdr n p dr) (hout : s.frameStep.outbox = s.outbox ++ [⟨.ok, 0, 0, some e⟩]) :
    e = mkEvent hdr n p dr := by
  simpa [hs, State.deliver_eq, eq_comm] using hout

theorem etype_eq_of_deliver {s : State} {hdr : Byte} {n : Nat} {p : List Byte} {dr : DecodeResult} {e : Event}
    (hs : s.frameStep = s.deliver hdr n p dr) (hout : s.frameStep.outbox = s.outbox ++ [⟨.ok, 0, 0, some e⟩]) :
    e.etype = dr.etype :=
  congrArg (·.etype) (event_eq_of_deliver hs hout)

theorem no_event_of_respond {s : State} {st : Status} {d0 d1 : DataWord} (hs : s.frameStep = s.respond st d0 d1)
    (e : Event) : s.frameStep.outbox ≠ s.outbox ++ [⟨.ok, 0, 0, some e⟩] := by
  simp [hs]

/-! ### What each header gives -/

/-- Settles O16: without a header byte there is nothing to classify. -/
theorem frameOnEmptyBuffer : Obligations.FrameOnEmptyBuffer := fun _ hb => exec_frame_of_respond (frameStep_nil hb)

/-- Settles O17: the whole of BUF is dropped, and its first byte is no part of the payload. -/
theorem frameVersionTakesWholeBuffer : Obligations.FrameVersionTakesWholeBuffer := by
  intro s hdr rest hb hack hv
  have hs := frameStep_version hb (classify_versionSentinel hack hv)
  refine ⟨_, exec_frame_of_deliver hs (by simp [hb]), rfl, rfl, mkEvent_mflag .., mkEvent_bits_toNat .., ?_, rfl, rfl⟩
  rw [hb]
  rfl

/-- Settles O18: an accepted configuration's mode sentinel is never taken for the version sentinel. -/
theorem frameModeTakesHeaderOnly : Obligations.FrameModeTakesHeaderOnly := by
  intro s hdr rest hc hb hack hm
  obtain ⟨-, hsentinels, -⟩ := hc
  have hs := frameStep_mode hb (classify_modeSentinel hsentinels hack hm)
  exact ⟨_, exec_frame_of_deliver hs (by rw [hb, List.drop_one, List.tail_cons]), rfl, rfl, mkEvent_mflag ..,
    mkEvent_bits_toNat .., rfl, rfl, rfl⟩

/-- Settles O19: no sentinel of an accepted configuration has BITS = 0, so ACK_PENDING does not matter. -/
theorem frameEmptyHeader : Obligations.FrameEmptyHeader := by
  intro s hdr rest hc hb h0
  obtain ⟨-, hsentinels, -⟩ := hc
  have hbits : hdrBits hdr = 0 := (hdrBits_eq_zero hdr).mpr h0
  have hs := frameStep_empty hb (classify_emptyHeader hsentinels hbits)
  exact ⟨_, exec_frame_of_deliver hs (by rw [hb, List.drop_one, List.tail_cons]), rfl, rfl, mkEvent_mflag .., hbits,
    rfl, rfl, rfl⟩

/-- Settles O20: the bytes behind the header are too few for the payload. -/
theorem frameIncompleteLeavesState : Obligations.FrameIncompleteLeavesState := by
  intro s hdr rest hb hdata hl
  have hshort : rest.length < payloadBytes (hdrBits hdr).toNat := by
    rw [payloadBytes_hdrBits]
    rw [hb, List.length_cons] at hl
    omega
  rw [← payloadBytes_hdrBits, hb]
  exact exec_frame_of_respond (frameStep_incomplete hb (classify_dataHeader hdata) hshort)

/-- Settles O21: the payload is the run of bytes behind the header, and `rest` is what follows it. -/
theorem frameDataRemovesOneFrame : Obligations.FrameDataRemovesOneFrame := by
  intro s hdr p rest hb hdata hp
  have hlen : payloadBytes (hdrBits hdr).toNat = p.length := by rw [payloadBytes_hdrBits, hp]
  have hle : p.length ≤ 16 := hlen ▸ payloadBytes_le (hdrBits hdr)
  have hs : s.frameStep = s.deliver hdr (1 + p.length) p (decodeFrame s.cfg (hdrBits hdr) p) := by
    rw [frameStep_complete hb (classify_dataHeader hdata) (by simp [hlen]), hlen, List.take_left]
  have hdrop : s.buf.drop (1 + p.length) = rest := by
    rw [hb, Nat.add_comm, List.drop_succ_cons, List.drop_left]
  exact ⟨_, exec_frame_of_deliver hs hdrop, hdrBits_eq_ofNat hdr ▸ rfl, rfl, mkEvent_mflag .., mkEvent_bits_toNat ..,
    mkEvent_consumed_toNat _ _ _ (by omega), mkEvent_plen_toNat _ _ _ (by omega), rfl⟩

/-! ### What every FRAME gives -/

/-- FR takes from a delivered frame what the event reports of it. -/
theorem fr_holds_event_of_deliver {s : State} {hdr : Byte} {n : Nat} {p : List Byte} {dr : DecodeResult}
    (hs : s.frameStep = s.deliver hdr n p dr) :
    ∃ (e : Event) (b : List Byte), exec .frame s
        = .next ({ s with buf := b, fr := some ⟨e.hdr, e.etype, e.payload, e.plen⟩ }.gaveEvent e)
      ∧ e.plen = BitVec.ofNat 16 e.payload.length :=
  ⟨mkEvent hdr n p dr, s.buf.drop n, exec_frame_of_deliver hs rfl, rfl⟩

/-- Settles O22: FR is written exactly by the outcomes that deliver a frame. -/
theorem frameRegisterHoldsTheEvent : Obligations.FrameRegisterHoldsTheEvent := by
  intro s
  obtain ⟨-, hs⟩ | ⟨hdr, rest, -, ⟨-, hs⟩ | ⟨-, hs⟩ | ⟨-, hs⟩ | ⟨-, -, hs⟩ | ⟨-, -, hs⟩⟩ := s.frameStep_cases
  · exact .inl ⟨_, _, _, .inl rfl, exec_frame_of_respond hs⟩
  · exact .inr (fr_holds_event_of_deliver hs)
  · exact .inr (fr_holds_event_of_deliver hs)
  · exact .inr (fr_holds_event_of_deliver hs)
  · exact .inl ⟨_, _, _, .inr rfl, exec_frame_of_respond hs⟩
  · exact .inr (fr_holds_event_of_deliver hs)

/-- Settles O24: of the five answers only a complete DATA frame has one of the two etypes. -/
theorem dataEventConsumedCount : Obligations.DataEventConsumedCount := by
  intro s t hdr rest e hb hexec hout het
  obtain rfl : s.frameStep = t := Host.Outcome.next.inj hexec
  obtain ⟨hnil, -⟩ | ⟨hdr', rest', hb', ⟨-, hs⟩ | ⟨-, hs⟩ | ⟨-, hs⟩ | ⟨-, -, hs⟩ | ⟨-, -, hs⟩⟩ := s.frameStep_cases
  · simp [hnil] at hb
  · simp [etype_eq_of_deliver hs hout, noDecode] at het
  · simp [etype_eq_of_deliver hs hout, noDecode] at het
  · simp [etype_eq_of_deliver hs hout, noDecode] at het
  · exact absurd hout (no_event_of_respond hs e)
  · obtain ⟨rfl, -⟩ : hdr' = hdr ∧ rest' = rest := List.cons.inj (hb'.symm.trans hb)
    have hle := payloadBytes_le (hdrBits hdr')
    rw [event_eq_of_deliver hs hout, hs, ← payloadBytes_hdrBits]
    exact ⟨mkEvent_consumed_toNat _ _ _ (by omega), rfl⟩

/-- A buffer as long as the longest DATA frame always has a frame at its front (R62). -/
theorem frameStep_delivers_of_long {s : State} (hlong : 17 ≤ s.buf.length) :
    ∃ hdr n p dr, s.frameStep = s.deliver hdr n p dr ∧ 1 ≤ n ∧ n ≤ s.buf.length := by
  obtain ⟨hnil, -⟩ | ⟨hdr, rest, -, ⟨-, hs⟩ | ⟨-, hs⟩ | ⟨-, hs⟩ | ⟨-, hl, -⟩ | ⟨-, hl, hs⟩⟩ := s.frameStep_cases
  · simp [hnil] at hlong
  · exact ⟨_, _, _, _, hs, by omega, le_rfl⟩
  · exact ⟨_, _, _, _, hs, le_rfl, by omega⟩
  · exact ⟨_, _, _, _, hs, le_rfl, by omega⟩
  · have hle := payloadBytes_le (hdrBits hdr)
    omega
  · exact ⟨_, _, _, _, hs, by omega, hl⟩

/-- Settles O25: BUF_CAP is at least the longest DATA frame, and at most what `consumed` can count. -/
theorem fullBufferMakesProgress : Obligations.FullBufferMakesProgress := by
  intro s hc hfull
  obtain ⟨⟨hmin, hmax⟩, -⟩ := hc
  rw [← hfull] at hmin hmax
  obtain ⟨hdr, n, p, dr, hs, hpos, hn⟩ := frameStep_delivers_of_long hmin
  have hconsumed : (mkEvent hdr n p dr).consumed.toNat = n :=
    mkEvent_consumed_toNat _ _ _ (hn.trans_lt (Nat.lt_succ_of_le hmax))
  refine ⟨_, _, exec_frame_of_deliver hs rfl, rfl, hconsumed.symm ▸ hpos, ?_⟩
  rw [hconsumed, List.length_drop]
  omega

/-! ### What FRAME depends on (R98) -/

/-- One response, buffer and frame register update serve every state with these inputs. -/
def FrameDetermined (c : Config) (b : List Byte) (ack : Bool) : Prop :=
  ∃ (r : Response) (b' : List Byte) (f : Option FrameReg), ∀ s : State, s.cfg = c → s.buf = b → s.ackPending = ack →
    exec .frame s = .next { s with buf := b', fr := f.or s.fr, outbox := s.outbox ++ [r] }

theorem frameDetermined_of_respond {c : Config} {b : List Byte} {ack : Bool} (st : Status) (d0 d1 : DataWord)
    (h : ∀ s : State, s.cfg = c → s.buf = b → s.ackPending = ack → s.frameStep = s.respond st d0 d1) :
    FrameDetermined c b ack :=
  ⟨⟨st, d0, d1, none⟩, b, none, fun s hc hb ha => by
    rw [exec_frame_of_respond (h s hc hb ha), ← hb, Option.none_or]⟩

theorem frameDetermined_of_deliver {c : Config} {b : List Byte} {ack : Bool} (hdr : Byte) (n : Nat) (p : List Byte)
    (dr : DecodeResult)
    (h : ∀ s : State, s.cfg = c → s.buf = b → s.ackPending = ack → s.frameStep = s.deliver hdr n p dr) :
    FrameDetermined c b ack :=
  ⟨⟨.ok, 0, 0, some (mkEvent hdr n p dr)⟩, b.drop n, some (mkFrameReg hdr dr.etype p), fun s hc hb ha =>
    exec_frame_of_deliver (h s hc hb ha) (congrArg _ hb)⟩

/-- Settles O26: which outcome FRAME has, and what it answers, is read off the three inputs. -/
theorem frameIsDeterminedByItsInputs : Obligations.FrameIsDeterminedByItsInputs := by
  intro c b ack
  cases b with
  | nil => exact frameDetermined_of_respond _ _ _ fun s _ hb _ => frameStep_nil hb
  | cons hdr rest =>
    have hclass {s : State} (hc : s.cfg = c) (ha : s.ackPending = ack) :
        classify s.cfg s.ackPending hdr = classify c ack hdr := by rw [hc, ha]
    cases hk : classify c ack hdr with
    | version =>
      exact frameDetermined_of_deliver _ _ _ _ fun s hc hb ha => frameStep_version hb ((hclass hc ha).trans hk)
    | mode => exact frameDetermined_of_deliver _ _ _ _ fun s hc hb ha => frameStep_mode hb ((hclass hc ha).trans hk)
    | empty => exact frameDetermined_of_deliver _ _ _ _ fun s hc hb ha => frameStep_empty hb ((hclass hc ha).trans hk)
    | data =>
      obtain hl | hl := Nat.lt_or_ge rest.length (payloadBytes (hdrBits hdr).toNat)
      · exact frameDetermined_of_respond _ _ _ fun s hc hb ha =>
          frameStep_incomplete hb ((hclass hc ha).trans hk) hl
      · exact frameDetermined_of_deliver hdr (1 + payloadBytes (hdrBits hdr).toNat) _ _ fun s hc hb ha =>
          hc ▸ frameStep_complete hb ((hclass hc ha).trans hk) hl

end Sys2Proof.Proofs
end

section
/-! The decode unit (spec 41_decode.md R110 to R126): the two keys in numbers, the decoder table as a map and its
two probes, one equation per outcome of the pipeline, and what KEY answers. -/

namespace Sys2Proof.Proofs

open Sys2Proof Sys2Proof.Machine Sys2Proof.Laws

/-! ### The keys in numbers (R110 to R112) -/

theorem toNat_dispatchKey (p0 p1 : Byte) (more : List Byte) (bits : BitVec 7) :
    (dispatchKey (p0 :: p1 :: more) bits).toNat = (p0.toNat * 256 + p1.toNat) * 256 + bits.toNat := by
  have hcode : typeCode (p0 :: p1 :: more) = p0 ++ p1 := rfl
  simp only [dispatchKey, hcode, toNat_append_eq_add, BitVec.ofNat_eq_ofNat, BitVec.toNat_ofNat, Nat.zero_mod]
  omega

theorem toNat_maskedKey (key : Key) : (maskedKey key).toNat = key.toNat % 2 ^ 20 := by
  have hmask : keyMask.toNat = 2 ^ 20 - 1 := rfl
  rw [maskedKey, BitVec.toNat_and, hmask, Nat.and_two_pow_sub_one_eq_mod]

theorem maskedKey_eq_ofNat (key : Key) : maskedKey key = BitVec.ofNat 24 (key.toNat % 2 ^ 20) := by
  rw [← toNat_maskedKey, BitVec.ofNat_toNat, BitVec.setWidth_eq]

/-- Settles O43: the key's fields do not overlap, and the mask is the low 20 bits. -/
theorem keysInNumbers : Obligations.KeysInNumbers := fun p0 p1 more bits =>
  ⟨toNat_dispatchKey p0 p1 more bits, toNat_maskedKey⟩

/-! ### The table and its two probes (R113, R114) -/

theorem probe_eq_none_iff (c : Config) (key : Key) : probe c key = none ↔ ∀ e, (key, e) ∉ c.table := by
  rw [probe, List.lookup_eq_none_iff]
  constructor
  · intro hkeys e hrow
    simpa using hkeys (key, e) hrow
  · rintro hnone ⟨k, e⟩ hrow
    rw [bne_iff_ne]
    rintro rfl
    exact hnone e hrow

/-- A table without a repeated key is a map: a probe finds exactly the row that has the key. -/
theorem probe_eq_some_iff {c : Config} (hkeys : (c.table.map Prod.fst).Nodup) (key : Key) (e : Entry) :
    probe c key = some e ↔ (key, e) ∈ c.table := by
  refine ⟨mem_table_of_probe c key e, fun hrow => ?_⟩
  cases hprobe : probe c key with
  | none => exact absurd hrow ((probe_eq_none_iff c key).mp hprobe e)
  | some e' =>
    have hsame : (key, e') = (key, e) :=
      List.inj_on_of_nodup_map hkeys (mem_table_of_probe c key e' hprobe) hrow rfl
    rw [(Prod.mk.inj hsame).2]

section Probes
variable {c : Config} {key : Key} {e : Entry}

theorem lookupEntry_exact (hkey : probe c key = some e) : lookupEntry c key = some (e, .exact) := by
  rw [lookupEntry, hkey]

theorem lookupEntry_masked (hkey : probe c key = none) (hmasked : probe c (maskedKey key) = some e) :
    lookupEntry c key = some (e, .masked) := by
  simp only [lookupEntry, hkey, hmasked]

theorem lookupEntry_none (hkey : probe c key = none) (hmasked : probe c (maskedKey key) = none) :
    lookupEntry c key = none := by
  simp only [lookupEntry, hkey, hmasked]

end Probes

/-- Settles O44: an accepted table has no key twice, so each probe finds the row of its own key. -/
theorem lookupTriesExactThenMasked : Obligations.LookupTriesExactThenMasked := by
  intro c key hc
  obtain ⟨-, -, -, -, ⟨hkeys, -⟩, -⟩ := hc
  rw [← maskedKey_eq_ofNat]
  refine ⟨fun e hrow => ?_, fun e hnone hrow => ?_, fun hnone hnoMasked => ?_⟩
  · exact lookupEntry_exact ((probe_eq_some_iff hkeys key e).mpr hrow)
  · exact lookupEntry_masked ((probe_eq_none_iff c key).mpr hnone) ((probe_eq_some_iff hkeys _ e).mpr hrow)
  · exact lookupEntry_none ((probe_eq_none_iff c key).mpr hnone) ((probe_eq_none_iff c _).mpr hnoMasked)

/-! ### The pipeline, one equation per outcome (R117 to R121) -/

section Pipeline
variable {c : Config} {bits : BitVec 7} {p : List Byte} {key : Key} {e : Entry} {lk : Lookup} {m : Method}

theorem decodeFrame_short (hlen : p.length < typeCodeBytes) : decodeFrame c bits p = decodeShort := if_pos hlen

theorem decodeFrame_miss (hlen : typeCodeBytes ≤ p.length) (hkey : lookupEntry c (dispatchKey p bits) = none) :
    decodeFrame c bits p = decodeMiss (dispatchKey p bits) := by
  rw [decodeFrame, if_neg hlen.not_gt, hkey]

theorem decodeFrame_entry (hlen : typeCodeBytes ≤ p.length)
    (hkey : lookupEntry c (dispatchKey p bits) = some (e, lk)) :
    decodeFrame c bits p = decodeEntry c (dispatchKey p bits) e lk p := by
  rw [decodeFrame, if_neg hlen.not_gt, hkey]

theorem decodeEntry_unhandled (hm : e.method = none) : decodeEntry c key e lk p = decodeUnhandled key e lk := by
  rw [decodeEntry, hm]

theorem decodeEntry_ckFail (hm : e.method = some m) (hgate : ckGate c e p = false) :
    decodeEntry c key e lk p = decodeCkFail key e lk m := by
  simp only [decodeEntry, hm, hgate, Bool.false_eq_true, if_false]

theorem decodeEntry_ok (hm : e.method = some m) (hgate : ckGate c e p = true) :
    decodeEntry c key e lk p = decodeOk c key e lk m p := by
  simp only [decodeEntry, hm, hgate, if_true]

/-- The checksum gate (R120): an entry's variant, if it names one, passes. -/
theorem ckGate_eq_true_iff : ckGate c e p = true ↔ ∀ v : CkSel, e.ck = some v → ckPass c.ck[v] p = true := by
  cases hck : e.ck with
  | none | some v => simp [ckGate, hck]

theorem ckGate_eq_false {v : CkSel} (hck : e.ck = some v) (hfail : ckPass c.ck[v] p = false) :
    ckGate c e p = false := by
  rw [ckGate, hck]
  exact hfail

theorem byteAt_of_getElem? {i : Nat} {b : Byte} (hb : p[i]? = some b) : byteAt p i = b := by
  rw [byteAt, List.getD_eq_getElem?_getD, hb, Option.getD_some]

end Pipeline

/-- Settles O46: what decides each outcome picks its equation; the record it reports is then read off. -/
theorem decodePipelineOutcomes : Obligations.DecodePipelineOutcomes := by
  intro c bits p
  refine ⟨decodeFrame_short, decodeFrame_miss, fun e lk hlen hkey => ?_⟩
  rw [decodeFrame_entry hlen hkey]
  refine ⟨decodeEntry_unhandled, fun m hm => ⟨fun v hck hfail => ?_, fun hpass a ha => ?_⟩⟩
  · exact decodeEntry_ckFail hm (ckGate_eq_false hck hfail)
  · have haddr : byteAt p addrByte = a := byteAt_of_getElem? ha
    rw [decodeEntry_ok hm (ckGate_eq_true_iff.mpr hpass), decodeOk, haddr]
    rfl

/-! ### KEY (R126) -/

theorem toNat_frameReg_key {f : FrameReg} {p0 p1 : Byte} {more : List Byte} (hp : f.payload = p0 :: p1 :: more) :
    f.key.toNat = (p0.toNat * 256 + p1.toNat) * 256 + f.hdr.toNat % 128 := by
  rw [FrameReg.key, hp, toNat_dispatchKey, hdrBits_toNat]

/-- KEY's second data word in numbers: the lookup code above the masked key. -/
theorem toNat_keyWord (c : Config) (key : Key) :
    (keyWord c key).toNat = (lookupCode (lookupResult c key)).toNat * 2 ^ 24 + key.toNat % 2 ^ 20 := by
  simp only [keyWord, toNat_append_eq_add, toNat_maskedKey, BitVec.ofNat_eq_ofNat, BitVec.toNat_ofNat,
    Nat.zero_mod, Nat.zero_mul, Nat.zero_add]

/-- Settles O37: KEY reads FR; in range, its two words are the frame's key and the lookup code above its
masked key. -/
theorem keyAnswersBothKeys : Obligations.KeyAnswersBothKeys := by
  refine fun s => ⟨rfl, fun hnone => ?_, fun f hf => ⟨fun hshort => ?_, fun hlen p0 p1 more hp => ?_⟩⟩
  · exact congrArg Host.Outcome.next (s.readFrame_none _ _ _ hnone)
  · exact congrArg Host.Outcome.next (s.readFrame_outOfRange _ _ _ f hf (decide_eq_false hshort.not_ge))
  · rw [← toNat_frameReg_key hp]
    simp only [BitVec.ofNat_toNat, BitVec.setWidth_eq]
    exact ⟨keyWord s.cfg f.key,
      congrArg Host.Outcome.next (s.readFrame_inRange _ _ _ f hf (decide_eq_true hlen)), toNat_keyWord s.cfg f.key⟩

end Sys2Proof.Proofs
end

section
/-! Nibbles, checksums and the temperature (spec 42_nibble_checksum.md R130 to R143): each quantity of the
arithmetic unit in numbers, what the commands NIB, NSUM, CKSUM and TEMP read from FR, and which corrupted nibbles a
checksum detects. -/

namespace Sys2Proof.Proofs

open Sys2Proof Sys2Proof.Machine Sys2Proof.Laws

/-! ### Nibbles and their sum in numbers (R130, R132) -/

section Nibbles
variable {p q : List Byte}

theorem toNat_nib_even {i : Nat} {b : Byte} (hb : p[i]? = some b) : (nib p (2 * i)).toNat = b.toNat / 16 := by
  have hlt := b.isLt
  rw [nib_even, byteAt_of_getElem? hb, BitVec.extractLsb'_toNat, Nat.shiftRight_eq_div_pow]
  omega

theorem toNat_nib_odd {i : Nat} {b : Byte} (hb : p[i]? = some b) : (nib p (2 * i + 1)).toNat = b.toNat % 16 := by
  rw [nib_odd, byteAt_of_getElem? hb, BitVec.extractLsb'_toNat, Nat.shiftRight_zero]

variable (p) in
theorem nsum_eq_sum (n : Nat) : nsum p n = ((List.range n).map fun j => (nib p j).toNat).sum := by
  induction n with
  | zero => rfl
  | succ n ih => simp [List.range_succ, ih]

variable (p) in
theorem nsum_le (n : Nat) : nsum p n ≤ 15 * n := by
  induction n with
  | zero => simp
  | succ n ih =>
    have hlast := nib_lt p n
    rw [nsum_succ]
    omega

theorem nsum_congr {n : Nat} (h : ∀ i < n, nib q i = nib p i) : nsum q n = nsum p n := by
  rw [nsum_eq_sum, nsum_eq_sum]
  exact congrArg List.sum (List.map_congr_left fun i hi => by rw [h i (List.mem_range.mp hi)])

/-- Replacing one nibble of the run moves the sum by the difference of the two nibbles. -/
theorem nsum_add_nib {j n : Nat} (hj : j < n) (h : ∀ i, i ≠ j → nib q i = nib p i) :
    nsum q n + (nib p j).toNat = nsum p n + (nib q j).toNat := by
  induction n with
  | zero => omega
  | succ n ih =>
    rw [nsum_succ, nsum_succ]
    obtain hlt | rfl := Nat.lt_succ_iff_lt_or_eq.mp hj
    · have hrun := ih hlt
      rw [h n (by omega)]
      omega
    · rw [nsum_congr fun i hi => h i (by omega)]
      omega

end Nibbles

/-- Settles O30: the two nibbles of a byte are its quotient and its remainder by 16. -/
theorem nibbleOrder : Obligations.NibbleOrder := fun _ _ _ hb => ⟨toNat_nib_even hb, toNat_nib_odd hb⟩

/-- Settles O31: both parts by induction on the number of nibbles. -/
theorem nibbleSum : Obligations.NibbleSum := fun p n => ⟨nsum_eq_sum p n, nsum_le p n⟩

/-! ### Reading the frame register (R161) -/

/-- A reader of FR whose range is a proposition about the frame, when there is a frame: its two answers. -/
theorem next_readFrame_of_frame {s : State} {f : FrameReg} (hf : s.fr = some f) (inRange : FrameReg → Prop)
    [DecidablePred inRange] (d0 d1 : FrameReg → DataWord) :
    (.next (s.readFrame (fun f => decide (inRange f)) d0 d1) : Result)
      = if inRange f then .next (s.gave .ok (d0 f) (d1 f)) else .next s.gaveErange := by
  by_cases hr : inRange f
  · rw [if_pos hr, s.readFrame_inRange _ d0 d1 f hf (decide_eq_true hr), State.respond_eq]
  · rw [if_neg hr, s.readFrame_outOfRange _ d0 d1 f hf (decide_eq_false hr), State.raise_eRange]

theorem next_readFrame_of_no_frame {s : State} (hnone : s.fr = none) (inRange : FrameReg → Bool)
    (d0 d1 : FrameReg → DataWord) : (.next (s.readFrame inRange d0 d1) : Result) = .next s.gaveErange := by
  rw [s.readFrame_none _ d0 d1 hnone, State.raise_eRange]

/-! ### NIB and NSUM (R131, R133) -/

/-- Settles O32: NIB reads FR within `2 * plen` nibbles. -/
theorem nibReadsOneNibble : Obligations.NibReadsOneNibble := fun _ j =>
  ⟨by simpa [Instr.opcode, Instr.operand] using toNat_encode (.nib j),
    fun hnone => next_readFrame_of_no_frame hnone _ _ _, fun _ hf => next_readFrame_of_frame hf _ _ _⟩

/-- Settles O33: NSUM reads FR up to `2 * plen` nibbles, and its sum is the sum over the list. -/
theorem nsumSumsNibbles : Obligations.NsumSumsNibbles := by
  refine fun s n => ⟨by simpa [Instr.opcode, Instr.operand] using toNat_encode (.nsum n),
    fun hnone => next_readFrame_of_no_frame hnone _ _ _, fun f hf => ?_⟩
  rw [← nsum_eq_sum]
  exact next_readFrame_of_frame hf _ _ _

/-! ### The checksum in numbers (R134, R137) -/

section Checksum
variable (x : CkTriple) (p : List Byte)

/-- S: subtracting 10 modulo 256 is adding 246. -/
theorem toNat_ckSum : (ckSum x p).toNat = (nsum p x.n + 246) % 256 := by
  have hbias : ckBias = 10 := rfl
  rw [ckSum, BitVec.toNat_ofInt, hbias]
  omega

theorem toNat_ckExpected : (ckExpected x p).toNat = (nib p x.hi).toNat * 16 + (nib p x.lo).toNat :=
  toNat_append_eq_add _ _

theorem ckPass_eq_true_iff : ckPass x p = true ↔ ckSum x p = ckExpected x p := decide_eq_true_iff

theorem toNat_ckPass : (ckPass x p).toNat = if (ckSum x p).toNat = (ckExpected x p).toNat then 1 else 0 := by
  rw [ckPass, Bool.toNat, Bool.cond_decide]
  simp only [BitVec.toNat_inj]

/-- CKSUM's data word: E, S and the comparison in fields that do not overlap. -/
theorem toNat_ckWord :
    (ckWord x p).toNat = (ckExpected x p).toNat * 65536 + (ckSum x p).toNat * 256 + (ckPass x p).toNat := by
  simp only [ckWord, toNat_append_eq_add, BitVec.toNat_ofBool, BitVec.ofNat_eq_ofNat, BitVec.toNat_ofNat,
    Nat.zero_mod]
  omega

end Checksum

/-! ### CKSUM (R137) -/

theorem ckSelOf?_eq_none {k : Byte} (hk : k.toNat < 1 ∨ 8 < k.toNat) : ckSelOf? k = none :=
  dif_neg (by omega)

theorem toNat_variant (v : CkSel) : (BitVec.ofNat 8 (v.val + 1)).toNat = v.val + 1 := by
  have hv := v.isLt
  rw [BitVec.toNat_ofNat]
  omega

/-- The operand k = v + 1 names the variant v. -/
theorem ckSelOf?_variant (v : CkSel) : ckSelOf? (BitVec.ofNat 8 (v.val + 1)) = some v := by
  have hv := v.isLt
  simp only [ckSelOf?, toNat_variant]
  exact dif_pos (by omega)

theorem exec_cksum_of_illegal {k : Byte} (hk : k.toNat < 1 ∨ 8 < k.toNat) (s : State) :
    exec (.cksum k) s = .next s.gaveEill := by
  rw [exec, execCksum, ckSelOf?_eq_none hk, State.raise_eIll]

/-- CKSUM of a variant is a reader of FR. -/
theorem exec_cksum_of_variant (v : CkSel) (s : State) :
    exec (.cksum (BitVec.ofNat 8 (v.val + 1))) s
      = .next (s.readFrame (fun f => decide (ckReach s.cfg.ck[v] < 2 * f.plen.toNat))
          (fun f => ckWord s.cfg.ck[v] f.payload) fun _ => 0) := by
  rw [exec, execCksum, ckSelOf?_variant]
  rfl

/-- Settles O34: the operand decides between EILL and a read of FR, the variant's highest nibble whether the frame
is in range. -/
theorem cksumComparesSumWithExpected : Obligations.CksumComparesSumWithExpected := by
  refine fun s => ⟨fun k hk => exec_cksum_of_illegal hk s, fun v => ?_⟩
  simp only [exec_cksum_of_variant]
  refine ⟨?_, fun hnone => next_readFrame_of_no_frame hnone _ _ _, fun f hf => ⟨fun hout => ?_, fun hin => ?_⟩⟩
  · rw [toNat_encode, Instr.operand, toNat_variant]
    simp [Instr.opcode]
  · rw [next_readFrame_of_frame hf]
    exact if_neg hout
  · refine ⟨ckWord s.cfg.ck[v] f.payload, ?_, ?_⟩
    · rw [next_readFrame_of_frame hf]
      exact if_pos hin
    · rw [toNat_ckWord, toNat_ckPass, toNat_ckSum, toNat_ckExpected]

/-! ### Corruption of one nibble (R139) -/

section Corruption
variable {x : CkTriple} {p q : List Byte} {j : Nat}

/-- Within the run S moves by a non-zero amount of at most 15, so it moves modulo 256. -/
theorem ckSum_ne_of_run (hne : nib q j ≠ nib p j) (hsame : ∀ i, i ≠ j → nib q i = nib p i) (hj : j < x.n) :
    ckSum x q ≠ ckSum x p := by
  have hmove := nsum_add_nib hj hsame
  have hp := nib_lt p j
  have hq := nib_lt q j
  have hnib : (nib q j).toNat ≠ (nib p j).toNat := BitVec.toNat_ne.mp hne
  rw [BitVec.toNat_ne, toNat_ckSum, toNat_ckSum]
  omega

theorem ckSum_eq_of_beyond_run (hsame : ∀ i, i ≠ j → nib q i = nib p i) (hj : x.n ≤ j) :
    ckSum x q = ckSum x p := by
  rw [ckSum, ckSum, nsum_congr fun i hi => hsame i (by omega)]

theorem ckExpected_eq_iff : ckExpected x q = ckExpected x p ↔ nib q x.hi = nib p x.hi ∧ nib q x.lo = nib p x.lo := by
  have hp := nib_lt p x.lo
  have hq := nib_lt q x.lo
  simp only [← BitVec.toNat_inj, toNat_ckExpected]
  omega

theorem ckExpected_ne_of_place (hne : nib q j ≠ nib p j) (hj : j = x.hi ∨ j = x.lo) :
    ckExpected x q ≠ ckExpected x p := by
  intro h
  obtain ⟨hhi, hlo⟩ := ckExpected_eq_iff.mp h
  obtain rfl | rfl := hj
  · exact hne hhi
  · exact hne hlo

theorem ckExpected_eq_of_elsewhere (hsame : ∀ i, i ≠ j → nib q i = nib p i) (hhi : j ≠ x.hi)
    (hlo : j ≠ x.lo) : ckExpected x q = ckExpected x p :=
  ckExpected_eq_iff.mpr ⟨hsame _ hhi.symm, hsame _ hlo.symm⟩

end Corruption

/-- Settles O51: a corrupted nibble in the run changes S alone, since R135 puts the expected nibbles beyond the
run; one of the expected nibbles changes E alone; any other changes neither. -/
theorem singleNibbleCorruptionDetected : Obligations.SingleNibbleCorruptionDetected := by
  rintro x p q j ⟨-, hhi, hlo⟩ - - hne hsame
  refine ⟨fun hcovered hpass => ?_, fun helse => ?_⟩
  · rw [← Bool.not_eq_true, ckPass_eq_true_iff]
    rw [ckPass_eq_true_iff] at hpass
    by_cases hrun : j < x.n
    · rw [ckExpected_eq_of_elsewhere hsame (by omega) (by omega), ← hpass]
      exact ckSum_ne_of_run hne hsame hrun
    · rw [ckSum_eq_of_beyond_run hsame (by omega), hpass]
      exact (ckExpected_ne_of_place hne (by omega)).symm
  · rw [ckPass, ckPass, ckSum_eq_of_beyond_run hsame (by omega),
      ckExpected_eq_of_elsewhere hsame (by omega) (by omega)]

/-! ### The temperature in numbers (R141, R142) -/

section Temperature
variable (p : List Byte)

theorem tempMag_le : tempMag p ≤ 1665 := by
  have htens := nib_lt p tempTensNibble
  have hones := nib_lt p tempOnesNibble
  have htenths := nib_lt p tempTenthsNibble
  rw [tempMag]
  omega

/-- TEMP's first word: the magnitude stays below the sign's bit 11. -/
theorem toNat_tempWord : (tempWord p).toNat = (tempNeg p).toNat * 2048 + tempMag p := by
  have hmag := tempMag_le p
  have hneg := (tempNeg p).toNat_lt
  have hsign : (bit32 (tempNeg p) <<< 11).toNat = (tempNeg p).toNat <<< 11 := by
    rw [BitVec.toNat_shiftLeft, bit32, zext32, BitVec.toNat_ofNat, Nat.shiftLeft_eq, Nat.shiftLeft_eq]
    omega
  have hlow : (zext32 (tempMag p)).toNat = tempMag p := Nat.mod_eq_of_lt (by omega)
  rw [tempWord, BitVec.toNat_or, hsign, hlow, ← Nat.shiftLeft_add_eq_or_of_lt (by omega), Nat.shiftLeft_eq]

variable {p} {b : Byte}

/-- The sign is bit 3 of payload byte 6. -/
theorem tempNeg_eq_decide (hb : p[6]? = some b) : tempNeg p = decide (b.toNat / 8 % 2 = 1) := by
  have hbyte : byteAt p tempSignByte = b := byteAt_of_getElem? hb
  rw [tempNeg, hbyte]
  exact Nat.testBit_eq_decide_div_mod_eq

theorem toNat_tempNeg (hb : p[6]? = some b) : (tempNeg p).toNat = b.toNat / 8 % 2 := by
  rw [tempNeg_eq_decide hb, Bool.toNat, Bool.cond_decide]
  split <;> omega

theorem tempValue_eq (hb : p[6]? = some b) :
    tempValue p = if b.toNat / 8 % 2 = 1 then -(tempMag p : Int) else tempMag p := by
  simp only [tempValue, tempNeg_eq_decide hb, decide_eq_true_eq]

end Temperature

/-! ### TEMP (R142) -/

/-- Settles O35: TEMP reads FR from 7 bytes on; its words are the sign above the magnitude, and the signed value. -/
theorem tempAnswersSignedTenths : Obligations.TempAnswersSignedTenths := by
  refine fun s => ⟨rfl, fun hnone => next_readFrame_of_no_frame hnone _ _ _, fun f hf => ?_⟩
  have hexec := next_readFrame_of_frame hf (fun f => tempBytes ≤ f.plen.toNat) (fun f => tempWord f.payload)
    fun f => tempValueWord f.payload
  refine ⟨fun hshort => hexec.trans (if_neg hshort.not_ge), fun hlen b hb => ?_⟩
  refine ⟨tempWord f.payload, ?_, (hexec.trans (if_pos hlen)).trans ?_⟩
  · rw [toNat_tempWord, toNat_tempNeg hb]
    rfl
  · rw [tempValueWord, tempValue_eq hb]
    rfl

end Sys2Proof.Proofs
end

section
/-! Errors are precise (spec 60_exceptions.md R161 to R163): a word either answers without an error or is
`raise` and nothing else, and the buffer and framing commands are never `raise`. -/

namespace Sys2Proof.Proofs

open Sys2Proof Sys2Proof.Machine

/-- `t` has one response more than `s`, and it reports no error. -/
def AnswersNoError (s t : State) : Prop :=
  ∃ r : Response, t.outbox = s.outbox ++ [r] ∧ r.st ≠ .eIll ∧ r.st ≠ .eRange

/-- A result that is an answer without an error, or `raise` on the state before. -/
def NoErrorOrRaise (s : State) (x : Result) : Prop :=
  (∃ t, x = .next t ∧ AnswersNoError s t) ∨ ∃ c, x = .next (s.raise c)

/-! ### The shared operations -/

/-- `s'` is what a command made of `s` before it answers. -/
theorem answersNoError_respond {s s' : State} {st : Status} {d0 d1 : DataWord} (hout : s'.outbox = s.outbox)
    (hst : st ≠ .eIll ∧ st ≠ .eRange) : AnswersNoError s (s'.respond st d0 d1) :=
  ⟨⟨st, d0, d1, none⟩, by rw [State.respond_outbox, hout], hst⟩

theorem answersNoError_deliver (s : State) (hdr : Byte) (n : Nat) (p : List Byte) (dr : DecodeResult) :
    AnswersNoError s (s.deliver hdr n p dr) :=
  ⟨⟨.ok, 0, 0, some (mkEvent hdr n p dr)⟩, by rw [State.deliver_eq], nofun, nofun⟩

theorem answersNoError_frameStep (s : State) : AnswersNoError s s.frameStep := by
  obtain ⟨-, hs⟩ | ⟨hdr, rest, -, ⟨-, hs⟩ | ⟨-, hs⟩ | ⟨-, hs⟩ | ⟨-, -, hs⟩ | ⟨-, -, hs⟩⟩ := s.frameStep_cases
  · exact hs ▸ answersNoError_respond rfl (by decide)
  · exact hs ▸ answersNoError_deliver ..
  · exact hs ▸ answersNoError_deliver ..
  · exact hs ▸ answersNoError_deliver ..
  · exact hs ▸ answersNoError_respond rfl (by decide)
  · exact hs ▸ answersNoError_deliver ..

theorem noErrorOrRaise_readFrame (s : State) (g : FrameReg → Bool) (d0 d1 : FrameReg → DataWord) :
    NoErrorOrRaise s (.next (s.readFrame g d0 d1)) := by
  obtain ⟨herr, -⟩ | ⟨f, -, -, hok⟩ := s.readFrame_cases g d0 d1
  · exact .inr ⟨.eRange, congrArg _ herr⟩
  · exact .inl ⟨_, congrArg _ hok, answersNoError_respond rfl (by decide)⟩

theorem response_of_raise {s : State} {c : ErrorCause} {r : Response} (ho : (s.raise c).outbox = s.outbox ++ [r]) :
    r = ⟨errorStatus c, 0, 0, none⟩ := by
  cases c with
  | eIll | eRange => exact (List.singleton_inj.mp (List.append_cancel_left ho)).symm

/-! ### Commands and words -/

/-- The buffer and framing commands answer without an error in every state (R162). -/
theorem exec_framing_answersNoError (s : State) {i : Instr}
    (hi : i = .frame ∨ i = .clear ∨ i = .stat ∨ (∃ b, i = .push b) ∨ ∃ v, i = .setack v) :
    ∃ t, exec i s = .next t ∧ AnswersNoError s t := by
  obtain rfl | rfl | rfl | ⟨b, rfl⟩ | ⟨v, rfl⟩ := hi
  · exact ⟨_, rfl, answersNoError_frameStep s⟩
  · exact ⟨_, rfl, answersNoError_respond rfl (by decide)⟩
  · exact ⟨_, rfl, answersNoError_respond rfl (by decide)⟩
  · by_cases hfull : s.full = true
    · exact ⟨_, if_pos hfull, answersNoError_respond rfl (by decide)⟩
    · exact ⟨_, if_neg hfull, answersNoError_respond rfl (by decide)⟩
  · exact ⟨_, rfl, answersNoError_respond rfl (by decide)⟩

theorem exec_noErrorOrRaise (i : Instr) (s : State) : NoErrorOrRaise s (exec i s) := by
  cases i with
  | push b | frame | clear | setack v | stat => exact .inl (exec_framing_answersNoError s (by simp))
  | nib j | nsum n | temp | key => exact noErrorOrRaise_readFrame ..
  | cksum k =>
    cases hk : ckSelOf? k with
    | none => exact .inr ⟨.eIll, by rw [exec, execCksum, hk]⟩
    | some v =>
      rw [exec, execCksum, hk]
      exact noErrorOrRaise_readFrame ..

theorem runWord_noErrorOrRaise (w : CmdWord) (s : State) : NoErrorOrRaise s (runWord w s) := by
  cases hw : decode w with
  | ok i => simpa only [runWord, hw] using exec_noErrorOrRaise i s
  | error x => exact .inr ⟨.eIll, by rw [runWord, hw]⟩

/-! ### The obligations -/

/-- Settles O39: a word answered with an error is `raise` on the state with the word taken, and the status
answered names the cause raised. -/
theorem errorsArePrecise : Obligations.ErrorsArePrecise := by
  intro s t w rest r hc hi hstep ho
  have hrun : runWord w { s with inbox := rest } = .next t := (step_cons s _ rest hc hi).symm.trans hstep
  obtain ⟨t', hnext, r', ho', hill, hrange⟩ | ⟨c, hraise⟩ := runWord_noErrorOrRaise w { s with inbox := rest }
  · obtain rfl : t' = t := by simpa [hnext] using hrun
    obtain rfl : r' = r := by simpa [ho'] using ho
    exact ⟨fun h => absurd h hill, fun h => absurd h hrange⟩
  · obtain rfl : ({ s with inbox := rest } : State).raise c = t := by simpa [hraise] using hrun
    obtain rfl := response_of_raise (s := { s with inbox := rest }) ho
    cases c with
    | eIll => exact ⟨fun _ => State.raise_eIll _, nofun⟩
    | eRange => exact ⟨nofun, fun _ => State.raise_eRange _⟩

/-- Settles O41: the answer is no error, and the sticky bits record only the error answered. -/
theorem framingCommandsRaiseNothing : Obligations.FramingCommandsRaiseNothing := by
  intro s i hi
  obtain ⟨t, hexec, r, ho, hill, hrange⟩ := exec_framing_answersNoError s hi
  obtain ⟨t', hexec', hrec⟩ := exec_recordsAnswer i s
  obtain rfl : t' = t := by simpa [hexec] using hexec'.symm
  have hsticky := hrec.sticky ho
  simp only [hill, hrange, decide_false, Bool.or_false] at hsticky
  exact ⟨t', r, hexec, ho, hill, hrange, hsticky⟩

end Sys2Proof.Proofs
end

section
/-! Just after reset (spec 70_reset_and_hazards.md R181): BUF is empty and not full, since BUF_CAP is at least the
longest DATA frame, and FR holds no frame, so that every command that reads FR raises ERANGE. -/

namespace Sys2Proof.Proofs

open Sys2Proof Sys2Proof.Machine

/-- An accepted BUF_CAP is not 0 (R8), so the empty buffer is not full. -/
theorem resetOf_length_ne_bufCap {c : Config} (hc : ConfigOk c) :
    (State.resetOf c).buf.length ≠ (State.resetOf c).cfg.bufCap := by
  obtain ⟨⟨hmin, -⟩, -⟩ := hc
  have hpos : 0 < c.bufCap := lt_of_lt_of_le (by decide : 0 < bufCapMin) hmin
  simpa using hpos.ne

/-- STAT answers the STATUS word (R93). -/
theorem exec_stat (s : State) : exec .stat s = .next (s.gave .ok s.status 0) := rfl

theorem status_resetOf {c : Config} (hc : ConfigOk c) : (State.resetOf c).status = 0 := by
  apply BitVec.eq_of_toNat_eq
  rw [toNat_status, toNat_full_mul, if_neg (resetOf_length_ne_bufCap hc)]
  simp

/-- Every legal operand of CKSUM names a variant (R137). -/
theorem exists_variant_of_legal {k : Byte} (h1 : 1 ≤ k.toNat) (h8 : k.toNat ≤ 8) :
    ∃ v : CkSel, k = BitVec.ofNat 8 (v.val + 1) := by
  refine ⟨⟨k.toNat - 1, by omega⟩, BitVec.eq_of_toNat_eq ?_⟩
  rw [toNat_variant]
  exact (Nat.sub_add_cancel h1).symm

/-- Without a frame, CKSUM of a legal variant raises ERANGE, as the other readers of FR do. -/
theorem exec_cksum_of_no_frame {s : State} (hnone : s.fr = none) {k : Byte} (h1 : 1 ≤ k.toNat) (h8 : k.toNat ≤ 8) :
    exec (.cksum k) s = .next s.gaveErange := by
  obtain ⟨v, rfl⟩ := exists_variant_of_legal h1 h8
  rw [exec_cksum_of_variant, next_readFrame_of_no_frame hnone]

/-- Settles O11: STAT, FRAME and PUSH see the empty buffer, and the readers of FR find no frame. -/
theorem firstCommandAfterReset : Obligations.FirstCommandAfterReset := by
  rintro c s hc rfl
  have hnone := State.resetOf_fr c
  refine ⟨?stat, ?frame, fun j => ?nib, fun n => ?nsum, fun k h1 h8 => ?cksum, ?temp, ?key, fun b => ?push⟩
  case stat => rw [exec_stat, status_resetOf hc]
  case frame => exact frameOnEmptyBuffer _ (State.resetOf_buf c)
  case nib | nsum | temp | key => exact next_readFrame_of_no_frame hnone _ _ _
  case cksum => exact exec_cksum_of_no_frame hnone h1 h8
  case push =>
    obtain ⟨-, -, hstores⟩ := pushStoresOrIsFull (State.resetOf c) b
    exact hstores (resetOf_length_ne_bufCap hc)

end Sys2Proof.Proofs
end

section
/-! What FRAME takes off BUF (spec 20_memory.md R41, R46; 40_framer.md R81 to R89): every frame is a run of bytes at the
front of BUF, of one of the four classes of R63. -/

namespace Sys2Proof.Proofs

open Sys2Proof Sys2Proof.Machine

/-- `hdr` and `p` are the front of BUF, and the frame they make has a class that gives it the decode result `dr`
(R81, R83 to R87). -/
structure FramesFront (s : State) (hdr : Byte) (p : List Byte) (dr : DecodeResult) : Prop where
  front : ∃ rest, s.buf = hdr :: p ++ rest
  cls : (dr = noDecode .version ∧ hdr = s.cfg.versionSentinel)
    ∨ (dr = noDecode .mode ∧ hdr ∈ s.cfg.modeSentinels ∧ p = [])
    ∨ (dr = noDecode .empty ∧ hdrBits hdr = 0 ∧ p = [])
    ∨ (dr = decodeFrame s.cfg (hdrBits hdr) p ∧ hdrBits hdr ≠ 0 ∧ p.length = payloadBytes (hdrBits hdr).toNat)

/-- A frame is no longer than the buffer it stands in. -/
theorem FramesFront.length_lt {s : State} {hdr : Byte} {p : List Byte} {dr : DecodeResult}
    (h : FramesFront s hdr p dr) : p.length < s.buf.length := by
  obtain ⟨rest, hb⟩ := h.front
  simp only [hb, List.length_append, List.length_cons]
  omega

/-- The frame and what its bytes leave behind are the buffer. -/
theorem FramesFront.append_drop {s : State} {hdr : Byte} {p : List Byte} {dr : DecodeResult}
    (h : FramesFront s hdr p dr) : hdr :: p ++ s.buf.drop (1 + p.length) = s.buf := by
  obtain ⟨rest, hb⟩ := h.front
  rw [hb, Nat.add_comm, ← List.length_cons (a := hdr), List.drop_left]

/-- FRAME answers NOMSG or INCOMPLETE and leaves the block as it is, or delivers a frame off the front of BUF. -/
theorem frameStep_outcome (s : State) :
    (∃ st d0 d1, (st = .noMsg ∨ st = .incomplete) ∧ s.frameStep = s.respond st d0 d1)
      ∨ ∃ hdr p dr, FramesFront s hdr p dr ∧ s.frameStep = s.deliver hdr (1 + p.length) p dr := by
  cases hb : s.buf with
  | nil => exact .inl ⟨_, _, _, .inl rfl, frameStep_nil hb⟩
  | cons hdr rest =>
    have hempty : ∃ l, s.buf = hdr :: [] ++ l := ⟨rest, hb⟩
    obtain ⟨hk, -, hv⟩ | ⟨hk, -, -, hm⟩ | ⟨hk, -, -, h0⟩ | ⟨hk, -, -, h0⟩ := classify_cases s.cfg s.ackPending hdr
    · exact .inr ⟨_, _, _, ⟨⟨[], by simp [hb]⟩, .inl ⟨rfl, hv⟩⟩, Nat.add_comm 1 _ ▸ frameStep_version hb hk⟩
    · exact .inr ⟨_, _, _, ⟨hempty, .inr (.inl ⟨rfl, hm, rfl⟩)⟩, frameStep_mode hb hk⟩
    · exact .inr ⟨_, _, _, ⟨hempty, .inr (.inr (.inl ⟨rfl, h0, rfl⟩))⟩, frameStep_empty hb hk⟩
    · obtain hl | hl := Nat.lt_or_ge rest.length (payloadBytes (hdrBits hdr).toNat)
      · exact .inl ⟨_, _, _, .inr rfl, frameStep_incomplete hb hk hl⟩
      · have hlen : (rest.take (payloadBytes (hdrBits hdr).toNat)).length = payloadBytes (hdrBits hdr).toNat :=
          List.length_take_of_le hl
        have hfront : s.buf = hdr :: rest.take (payloadBytes (hdrBits hdr).toNat)
            ++ rest.drop (payloadBytes (hdrBits hdr).toNat) := by rw [List.cons_append, List.take_append_drop, hb]
        refine .inr ⟨_, _, _, ⟨⟨_, hfront⟩, .inr (.inr (.inr ⟨rfl, h0, hlen⟩))⟩, ?_⟩
        rw [hlen]
        exact frameStep_complete hb hk hl

/-- Settles O23: the event is the delivered frame's, and its bytes are what BUF loses. -/
theorem frameSplitsFrontOfBuffer : Obligations.FrameSplitsFrontOfBuffer := by
  intro s t e hexec hout
  obtain rfl : s.frameStep = t := Host.Outcome.next.inj hexec
  obtain ⟨st, d0, d1, -, hs⟩ | ⟨hdr, p, dr, hfront, hs⟩ := frameStep_outcome s
  · exact absurd hout (no_event_of_respond hs e)
  · obtain rfl := event_eq_of_deliver hs hout
    refine ⟨?_, congrArg (BitVec.ofNat 16) (Nat.add_comm 1 p.length)⟩
    rw [hs]
    exact hfront.append_drop

end Sys2Proof.Proofs
end

section
/-! What a command can do to the state (spec 10_state.md R20): one inversion lemma over the ten commands, from which
what each command leaves unchanged is read off. -/

namespace Sys2Proof.Proofs

open Sys2Proof Sys2Proof.Machine

/-- Everything a command can make of the state `s`. -/
inductive CommandEffect (s : State) : Instr → State → Prop where
  /-- A response alone: STAT, a reader of FR in range, PUSH on a full buffer, FRAME without a frame. -/
  | answered (i : Instr) {st : Status} (d0 d1 : DataWord) (hst : st ≠ .eIll ∧ st ≠ .eRange) :
      CommandEffect s i (s.respond st d0 d1)
  /-- An error: a reader of FR out of range, CKSUM of no variant. -/
  | raised (i : Instr) (c : ErrorCause) : CommandEffect s i (s.raise c)
  /-- PUSH with room in BUF (R80). -/
  | pushed (b : Byte) (d0 : DataWord) (hroom : s.buf.length ≠ s.cfg.bufCap) :
      CommandEffect s (.push b) ((s.bufAppend b).respond .ok d0 0)
  /-- CLEAR (R90). -/
  | cleared (d0 : DataWord) : CommandEffect s .clear (s.bufClear.respond .ok d0 0)
  /-- SETACK (R92). -/
  | ackSet (v : BitVec 1) (d0 : DataWord) : CommandEffect s (.setack v) ((s.withAck (v.getLsbD 0)).respond .ok d0 0)
  /-- FRAME with a frame at the front of BUF (R81). -/
  | framed {hdr : Byte} {p : List Byte} {dr : DecodeResult} (hfront : FramesFront s hdr p dr) :
      CommandEffect s .frame (s.deliver hdr (1 + p.length) p dr)

theorem commandEffect_readFrame (i : Instr) (s : State) (g : FrameReg → Bool) (d0 d1 : FrameReg → DataWord) :
    CommandEffect s i (s.readFrame g d0 d1) := by
  obtain ⟨herr, -⟩ | ⟨f, -, -, hok⟩ := s.readFrame_cases g d0 d1
  · exact herr ▸ .raised i .eRange
  · exact hok ▸ .answered i _ _ (by decide)

theorem commandEffect_frameStep (s : State) : CommandEffect s .frame s.frameStep := by
  obtain ⟨st, d0, d1, rfl | rfl, hs⟩ | ⟨hdr, p, dr, hfront, hs⟩ := frameStep_outcome s
  · exact hs ▸ .answered _ _ _ (by decide)
  · exact hs ▸ .answered _ _ _ (by decide)
  · exact hs ▸ .framed hfront

/-- Every command answers a next state in every state, by one of the effects. -/
theorem exec_commandEffect (i : Instr) (s : State) : ∃ t, exec i s = .next t ∧ CommandEffect s i t := by
  cases i with
  | push b =>
    by_cases hfull : s.full = true
    · exact ⟨_, if_pos hfull, .answered _ _ _ (by decide)⟩
    · exact ⟨_, if_neg hfull, .pushed b _ (mt (full_iff s).mpr hfull)⟩
  | frame => exact ⟨_, rfl, commandEffect_frameStep s⟩
  | clear => exact ⟨_, rfl, .cleared _⟩
  | setack v => exact ⟨_, rfl, .ackSet v _⟩
  | stat => exact ⟨_, rfl, .answered _ _ _ (by decide)⟩
  | nib j | nsum n | temp | key => exact ⟨_, rfl, commandEffect_readFrame ..⟩
  | cksum k =>
    cases hk : ckSelOf? k with
    | none => exact ⟨_, by rw [exec, execCksum, hk], .raised _ .eIll⟩
    | some v =>
      rw [exec, execCksum, hk]
      exact ⟨_, rfl, commandEffect_readFrame ..⟩

theorem commandEffect_of_exec {i : Instr} {s t : State} (h : exec i s = .next t) : CommandEffect s i t := by
  obtain ⟨t', hexec, heffect⟩ := exec_commandEffect i s
  obtain rfl : t' = t := Host.Outcome.next.inj (hexec.symm.trans h)
  exact heffect

/-! ### What a command leaves unchanged -/

/-- An error changes its sticky bit and the responses, nothing else (R163). -/
theorem raise_eq (s : State) (c : ErrorCause) :
    s.raise c = { s with errIll := s.errIll || decide (c = .eIll), errRange := s.errRange || decide (c = .eRange),
                         outbox := s.outbox ++ [⟨errorStatus c, 0, 0, none⟩] } := by
  cases c with
  | eIll | eRange => simp [State.raise, State.setSticky, State.respond_eq, State.withErrIll, State.withErrRange]

/-- Settles O42: each effect writes only the elements that R20 gives its command. -/
theorem onlyNamedCommandsWrite : Obligations.OnlyNamedCommandsWrite := by
  intro s t i hexec
  cases commandEffect_of_exec hexec with
  | answered => exact ⟨rfl, rfl, (absurd rfl ·), (absurd rfl ·), (absurd rfl ·)⟩
  | raised i c => simp [raise_eq]
  | pushed b => exact ⟨rfl, rfl, fun _ => .inr (.inr ⟨b, rfl⟩), (absurd rfl ·), (absurd rfl ·)⟩
  | cleared => exact ⟨rfl, rfl, fun _ => .inr (.inl rfl), (absurd rfl ·), (absurd rfl ·)⟩
  | ackSet v => exact ⟨rfl, rfl, (absurd rfl ·), fun _ => ⟨v, rfl⟩, (absurd rfl ·)⟩
  | framed => exact ⟨rfl, rfl, fun _ => .inl rfl, (absurd rfl ·), fun _ => rfl⟩

/-! ### What a step leaves unchanged -/

/-- Settles O8: every input has a next state, and neither a command nor reset writes the configuration. -/
theorem onlyABadConfigurationStops : Obligations.OnlyABadConfigurationStops := by
  refine fun s => ⟨step_refused s, fun hc => ?_⟩
  obtain ⟨hbad, -⟩ | ⟨-, -, hs⟩ | ⟨-, rest, -, hs⟩ | ⟨-, w, rest, i, -, -, hs⟩ | ⟨-, w, rest, x, -, -, hs⟩ :=
    step_cases s
  · exact absurd hc hbad
  · exact ⟨s, hs, rfl⟩
  · exact ⟨_, hs, rfl⟩
  · obtain ⟨t, hexec, -⟩ := exec_commandEffect i { s with inbox := rest }
    obtain ⟨hcfg, -⟩ := onlyNamedCommandsWrite _ t i hexec
    exact ⟨t, hs.trans hexec, hcfg⟩
  · exact ⟨_, hs, rfl⟩

end Sys2Proof.Proofs
end

section
/-! The invariant of the block's state (spec 10_state.md R21, R24, R33): it holds after reset, every command and the
reset input keep it, and so does every step. -/

namespace Sys2Proof.Proofs

open Sys2Proof Sys2Proof.Machine

/-! ### After reset -/

theorem inv_resetOf {c : Config} (hc : ConfigOk c) : (State.resetOf c).Inv :=
  ⟨hc, Nat.zero_le _, by simp⟩

/-- TCFG passes the check of R9 (95_test_vectors.md section 0). -/
theorem configOk_tcfg : ConfigOk Config.tcfg := by decide

/-- Settles O52: BUF, FR and the list of responses are empty after reset, and TCFG is accepted. -/
theorem resetMeetsInvariant : Obligations.ResetMeetsInvariant :=
  ⟨fun _ hc => ⟨inv_resetOf hc, by simp [State.OutboxOk]⟩, inv_resetOf configOk_tcfg⟩

/-! ### The frame that FRAME puts in FR -/

/-- Decoding a DATA frame gives one of the two etypes of a decoded frame (R117). -/
theorem etype_decodeFrame (c : Config) (bits : BitVec 7) (p : List Byte) :
    (decodeFrame c bits p).etype = .unknown ∨ (decodeFrame c bits p).etype = .family := by
  obtain ⟨-, hd⟩ | ⟨-, -, hd⟩ | ⟨-, e, lk, -, ⟨-, hd⟩ | ⟨m, -, ⟨-, hd⟩ | ⟨-, hd⟩⟩⟩ := decodeFrame_cases c bits p
  · exact .inl (hd ▸ rfl)
  · exact .inl (hd ▸ rfl)
  · exact .inl (hd ▸ rfl)
  · exact .inl (hd ▸ rfl)
  · exact .inr (hd ▸ rfl)

/-- The class of a decoded frame, whichever of the two etypes decoding gives. -/
theorem frameClassOk_data {c : Config} {f : FrameReg} (h0 : hdrBits f.hdr ≠ 0)
    (hlen : f.payload.length = payloadBytes (hdrBits f.hdr).toNat)
    (het : f.etype = (decodeFrame c (hdrBits f.hdr) f.payload).etype) : frameClassOk c f = true := by
  have hdata : frameClassOk.dataClassOk c f = true := decide_eq_true ⟨h0, hlen, het.symm⟩
  obtain hunknown | hfamily := etype_decodeFrame c (hdrBits f.hdr) f.payload
  · rw [frameClassOk, het, hunknown]
    exact hdata
  · rw [frameClassOk, het, hfamily]
    exact hdata

theorem FramesFront.frameClassOk {s : State} {hdr : Byte} {p : List Byte} {dr : DecodeResult}
    (h : FramesFront s hdr p dr) : frameClassOk s.cfg (mkFrameReg hdr dr.etype p) = true := by
  obtain ⟨rfl, hv⟩ | ⟨rfl, hm, hp⟩ | ⟨rfl, h0, hp⟩ | ⟨rfl, h0, hlen⟩ := h.cls
  · exact decide_eq_true hv
  · exact decide_eq_true ⟨hm, hp⟩
  · exact decide_eq_true ⟨h0, hp⟩
  · exact frameClassOk_data h0 hlen rfl

/-- BUF_CAP bounds every count to 16 bits (R8). -/
theorem buf_length_lt {s : State} (hs : s.Inv) : s.buf.length < 2 ^ 16 := by
  obtain ⟨⟨⟨-, hmax⟩, -⟩, hbuf, -⟩ := hs
  exact Nat.lt_succ_of_le (hbuf.trans hmax)

theorem FramesFront.frameOk {s : State} {hdr : Byte} {p : List Byte} {dr : DecodeResult}
    (h : FramesFront s hdr p dr) (hs : s.Inv) : FrameOk s.cfg (mkFrameReg hdr dr.etype p) := by
  have hfits := buf_length_lt hs
  obtain ⟨-, hbuf, -⟩ := hs
  have hlt := h.length_lt
  exact ⟨Nat.mod_eq_of_lt (by omega), lt_of_lt_of_le hlt hbuf, h.frameClassOk⟩

/-! ### Every command and every step -/

/-- The invariant speaks of the configuration, BUF and FR only. -/
theorem inv_of_parts {s t : State} (hs : s.Inv) (hcfg : t.cfg = s.cfg) (hbuf : t.buf.length ≤ s.cfg.bufCap)
    (hfr : ∀ f ∈ t.fr.toList, FrameOk s.cfg f) : t.Inv := by
  obtain ⟨hc, -, -⟩ := hs
  rw [State.Inv, hcfg]
  exact ⟨hc, hbuf, hfr⟩

theorem raise_keeps_inv {s : State} (hs : s.Inv) (c : ErrorCause) : (s.raise c).Inv := by
  rw [raise_eq]
  exact hs

theorem commandEffect_keeps_inv {s t : State} {i : Instr} (hs : s.Inv) (h : CommandEffect s i t) : t.Inv := by
  have ⟨_, hbuf, hfr⟩ := hs
  cases h with
  | answered => exact hs
  | raised i c => exact raise_keeps_inv hs c
  | pushed b d0 hroom =>
    refine inv_of_parts hs rfl ?_ hfr
    rw [State.respond_buf, State.bufAppend_buf, List.length_append, List.length_singleton]
    omega
  | cleared => exact inv_of_parts hs rfl (Nat.zero_le _) hfr
  | ackSet => exact hs
  | @framed hdr p dr hfront =>
    refine inv_of_parts hs rfl ?_ ?_
    · rw [State.deliver_eq, List.length_drop]
      omega
    · simpa [State.deliver_eq] using hfront.frameOk hs

/-- Settles O53: the idle step changes nothing, taking an input leaves the three parts alone, and reset, commands and
errors keep the invariant. -/
theorem stepKeepsInvariant : Obligations.StepKeepsInvariant := by
  intro s t hs hstep
  obtain ⟨-, hstep'⟩ | ⟨-, -, hstep'⟩ | ⟨-, rest, -, hstep'⟩ | ⟨-, w, rest, i, -, -, hstep'⟩
    | ⟨-, w, rest, x, -, -, hstep'⟩ := step_cases s
  · rw [hstep'] at hstep
    cases hstep
  · obtain rfl : s = t := Host.Outcome.next.inj (hstep'.symm.trans hstep)
    exact hs
  · obtain rfl : _ = t := Host.Outcome.next.inj (hstep'.symm.trans hstep)
    obtain ⟨hc, -⟩ := hs
    exact inv_resetOf hc
  · exact commandEffect_keeps_inv (s := { s with inbox := rest }) hs (commandEffect_of_exec (hstep'.symm.trans hstep))
  · obtain rfl : _ = t := Host.Outcome.next.inj (hstep'.symm.trans hstep)
    exact raise_keeps_inv (s := { s with inbox := rest }) hs .eIll

end Sys2Proof.Proofs
end

section
/-! The step's ends of the command channel (spec 30_encoding.md R65; 60_exceptions.md R174;
70_reset_and_hazards.md R180): a word placed, no input, the reset input. -/

namespace Sys2Proof.Proofs

open Sys2Proof Sys2Proof.Machine

/-- A command's word fits its 16 bits, so placing it issues that word. -/
theorem withFetchWord_encode (s : State) (i : Instr) :
    s.withFetchWord 16 (encode i).toNat = s.issueNext (.word (encode i)) := by
  rw [State.withFetchWord, Nat.mod_eq_of_lt (encode i).isLt, BitVec.ofNat_toNat, BitVec.setWidth_eq]

/-- Settles O6: the placed word is taken next, and decodes to its command. -/
theorem placedWordRunsNext : Obligations.PlacedWordRunsNext := by
  intro s i hc hwf
  rw [withFetchWord_encode]
  exact stepRunsDecodedCommand _ (encode i) s.inbox i hc rfl (decodeOfEncode i hwf)

/-- Settles O7: there is no input to take. -/
theorem idleStepChangesNothing : Obligations.IdleStepChangesNothing := by
  intro s hc hi
  rw [step_accepted s hc, runNext, s.takeInput_nil hi]

/-- Settles O10: the step takes the reset input and runs it. -/
theorem resetValues : Obligations.ResetValues :=
  ⟨fun s rest hc hi => step_cons s .reset rest hc hi, fun _ => rfl⟩

end Sys2Proof.Proofs
end

section
/-! The form of responses and events (spec 30_encoding.md R68, R70): the fields of a decode result that are present
follow from its dstat, an event adds the lengths of its frame, and every command word is answered by one such
response. -/

namespace Sys2Proof.Proofs

open Sys2Proof Sys2Proof.Machine

/-! ### The fields of a decode result (R70; 41_decode.md R117) -/

/-- What R70 says of the fields of an event that the decoder gives it, for the payload `p`. -/
def DecodeFieldsOk (p : List Byte) (d : DecodeResult) : Prop :=
  (d.etype = .family ↔ d.dstat = .ok)
    ∧ (d.dstat = .none ↔ (d.etype = .empty ∨ d.etype = .version ∨ d.etype = .mode))
    ∧ (d.lookup.isSome = decide (2 ≤ (dstatCode d.dstat).toNat) ∧ d.key.isSome = d.lookup.isSome)
    ∧ (d.part.isSome = decide (3 ≤ (dstatCode d.dstat).toNat) ∧ d.cksel.isSome = d.part.isSome)
    ∧ (d.method.isSome = decide (4 ≤ (dstatCode d.dstat).toNat) ∧ d.ckOk.isSome = d.method.isSome)
    ∧ d.addr = (if d.dstat = .ok then some (byteAt p addrByte) else none)
    ∧ (d.dstat ≠ .ok → d.meas = [])

theorem decodeFieldsOk_noDecode (p : List Byte) {et : EType} (het : et = .empty ∨ et = .version ∨ et = .mode) :
    DecodeFieldsOk p (noDecode et) := by
  obtain rfl | rfl | rfl := het <;> simp [DecodeFieldsOk, noDecode, dstatCode]

/-- Each outcome of the pipeline has the fields of its dstat. -/
theorem decodeFieldsOk_decodeFrame (c : Config) (bits : BitVec 7) (p : List Byte) :
    DecodeFieldsOk p (decodeFrame c bits p) := by
  obtain ⟨-, hd⟩ | ⟨-, -, hd⟩ | ⟨-, e, lk, -, ⟨-, hd⟩ | ⟨m, -, ⟨-, hd⟩ | ⟨-, hd⟩⟩⟩ := decodeFrame_cases c bits p
  · simp [hd, DecodeFieldsOk, decodeShort, noDecode, dstatCode]
  · simp [hd, DecodeFieldsOk, decodeMiss, noDecode, dstatCode]
  · simp [hd, DecodeFieldsOk, decodeUnhandled, noDecode, dstatCode]
  · simp [hd, DecodeFieldsOk, decodeCkFail, decodeUnhandled, noDecode, dstatCode]
  · simp [hd, DecodeFieldsOk, decodeOk, decodeUnhandled, noDecode, dstatCode]

theorem FramesFront.decodeFieldsOk {s : State} {hdr : Byte} {p : List Byte} {dr : DecodeResult}
    (h : FramesFront s hdr p dr) : DecodeFieldsOk p dr := by
  obtain ⟨rfl, -⟩ | ⟨rfl, -⟩ | ⟨rfl, -⟩ | ⟨rfl, -⟩ := h.cls
  · exact decodeFieldsOk_noDecode p (.inr (.inl rfl))
  · exact decodeFieldsOk_noDecode p (.inr (.inr rfl))
  · exact decodeFieldsOk_noDecode p (.inl rfl)
  · exact decodeFieldsOk_decodeFrame ..

/-! ### Events and responses (R68, R70) -/

/-- The event of a delivered frame; under the invariant its lengths fit their fields. -/
theorem FramesFront.eventOk {s : State} {hdr : Byte} {p : List Byte} {dr : DecodeResult}
    (h : FramesFront s hdr p dr) (hs : s.Inv) : EventOk (mkEvent hdr (1 + p.length) p dr) := by
  have hlt := h.length_lt
  have hfits := buf_length_lt hs
  exact ⟨⟨rfl, rfl⟩, ⟨mkEvent_plen_toNat _ _ _ (by omega), mkEvent_consumed_toNat _ _ _ (by omega)⟩,
    h.decodeFieldsOk⟩

theorem responseOk_of_event {e : Event} (he : EventOk e) : ResponseOk ⟨.ok, 0, 0, some e⟩ := by
  simpa [ResponseOk] using he

theorem responseOk_of_noError {st : Status} (d0 d1 : DataWord) (hst : st ≠ .eIll ∧ st ≠ .eRange) :
    ResponseOk ⟨st, d0, d1, none⟩ := by
  simp [ResponseOk, hst.1, hst.2]

theorem responseOk_of_error (c : ErrorCause) : ResponseOk ⟨errorStatus c, 0, 0, none⟩ := by
  simp [ResponseOk]

/-! ### Every command and every word -/

/-- `t` has one response more than `s`, of the record's form, and the same inputs ahead of it. -/
def AnswersOnce (s t : State) : Prop :=
  t.inbox = s.inbox ∧ ∃ r, t.outbox = s.outbox ++ [r] ∧ ResponseOk r

theorem answersOnce_raise (s : State) (c : ErrorCause) : AnswersOnce s (s.raise c) := by
  rw [raise_eq]
  exact ⟨rfl, _, rfl, responseOk_of_error c⟩

theorem commandEffect_answersOnce {s t : State} {i : Instr} (hs : s.Inv) (h : CommandEffect s i t) :
    AnswersOnce s t := by
  cases h with
  | answered i d0 d1 hst => exact ⟨rfl, _, rfl, responseOk_of_noError d0 d1 hst⟩
  | raised i c => exact answersOnce_raise s c
  | pushed | cleared | ackSet => exact ⟨rfl, _, rfl, responseOk_of_noError _ _ (by decide)⟩
  | framed hfront => exact ⟨rfl, _, rfl, responseOk_of_event (hfront.eventOk hs)⟩

theorem runWord_answersOnce (w : CmdWord) {s : State} (hs : s.Inv) :
    ∃ t, runWord w s = .next t ∧ AnswersOnce s t := by
  cases hw : decode w with
  | ok i =>
    obtain ⟨t, hexec, heffect⟩ := exec_commandEffect i s
    exact ⟨t, by simpa only [runWord, hw] using hexec, commandEffect_answersOnce hs heffect⟩
  | error x => exact ⟨_, by rw [runWord, hw], answersOnce_raise s .eIll⟩

/-- Settles O9: the step takes the word and runs it. -/
theorem everyWordGetsOneResponse : Obligations.EveryWordGetsOneResponse := by
  intro s w rest hs hi
  obtain ⟨t, hrun, hinbox, r, hout, hr⟩ := runWord_answersOnce w (s := { s with inbox := rest }) hs
  obtain ⟨hc, -⟩ := hs
  exact ⟨t, r, (step_cons s _ rest hc hi).trans hrun, hinbox, hout, hr⟩

theorem outboxOk_append {s t : State} {r : Response} (hs : s.OutboxOk) (hout : t.outbox = s.outbox ++ [r])
    (hr : ResponseOk r) : t.OutboxOk := by
  rw [State.OutboxOk, hout, List.forall_mem_append, List.forall_mem_singleton]
  exact ⟨hs, hr⟩

/-- Settles O54: a word adds one response of the record's form; without a word the responses stay as they are. -/
theorem stepKeepsResponsesWellFormed : Obligations.StepKeepsResponsesWellFormed := by
  intro s t hs hok hstep
  have ⟨hc, _⟩ := hs
  cases hi : s.inbox with
  | nil =>
    obtain rfl : s = t := Host.Outcome.next.inj ((idleStepChangesNothing s hc hi).symm.trans hstep)
    exact hok
  | cons x rest =>
    cases x with
    | reset =>
      obtain ⟨hreset, -⟩ := resetValues
      obtain rfl : _ = t := Host.Outcome.next.inj ((hreset s rest hc hi).symm.trans hstep)
      exact hok
    | word w =>
      obtain ⟨t', r, hstep', -, hout, hr⟩ := everyWordGetsOneResponse s w rest hs hi
      obtain rfl : t' = t := Host.Outcome.next.inj (hstep'.symm.trans hstep)
      exact outboxOk_append hok hout hr

end Sys2Proof.Proofs
end

section
/-! What FRAME does not depend on (spec 30_encoding.md R60, R64): while ACK_PENDING = 0 no sentinel is compared, so the
M flag and the sentinels do not frame. -/

namespace Sys2Proof.Proofs

open Sys2Proof Sys2Proof.Machine

/-- Without ACK_PENDING only BITS decides the class (R63). -/
theorem classify_noAck (c : Config) (hdr : Byte) :
    classify c false hdr = if hdrBits hdr = 0 then .empty else .data := by
  simp only [classify, Bool.false_eq_true, false_and, if_false]

/-! ### The M flag (R60) -/

/-- `s` and `s'` give FRAME responses that differ at most in the header and the M flag they report, which in `s'` are
those of `hdr'`; after OK they have equal buffers. -/
def FramesAlike (s s' : State) (hdr' : Byte) : Prop :=
  ∃ (t t' : State) (r r' : Response), exec .frame s = .next t ∧ exec .frame s' = .next t'
    ∧ t.outbox = s.outbox ++ [r] ∧ t'.outbox = s'.outbox ++ [r']
    ∧ r'.st = r.st ∧ r'.d0 = r.d0 ∧ r'.d1 = r.d1
    ∧ r'.ev.map (fun e => (e.toDecodeResult, e.bits, e.consumed, e.plen, e.payload))
        = r.ev.map (fun e => (e.toDecodeResult, e.bits, e.consumed, e.plen, e.payload))
    ∧ (∀ e ∈ r'.ev.toList, e.hdr = hdr' ∧ e.mflag = decide (128 ≤ hdr'.toNat))
    ∧ (r.st = .ok → t'.buf = t.buf)

theorem framesAlike_of_respond {s s' : State} {st : Status} {d0 d1 : DataWord} (hdr' : Byte)
    (hs : s.frameStep = s.respond st d0 d1) (hs' : s'.frameStep = s'.respond st d0 d1) (hst : st ≠ .ok) :
    FramesAlike s s' hdr' := by
  refine ⟨_, _, _, _, exec_frame_of_respond hs, exec_frame_of_respond hs', rfl, rfl, rfl, rfl, rfl, rfl, ?_, ?_⟩
  · simp
  · exact fun h => absurd h hst

theorem framesAlike_of_deliver {s s' : State} {hdr hdr' : Byte} {n : Nat} {p : List Byte} {dr : DecodeResult}
    (hs : s.frameStep = s.deliver hdr n p dr) (hs' : s'.frameStep = s'.deliver hdr' n p dr)
    (hbits : hdrBits hdr' = hdrBits hdr) (hbuf : s'.buf.drop n = s.buf.drop n) : FramesAlike s s' hdr' := by
  refine ⟨_, _, _, _, exec_frame_of_deliver hs rfl, exec_frame_of_deliver hs' rfl, rfl, rfl, rfl, rfl, rfl, ?_, ?_,
    fun _ => hbuf⟩
  · simp [mkEvent, hbits]
  · simpa using ⟨rfl, mkEvent_mflag hdr' n p dr⟩

/-- Settles O27: BITS alone decides which of the three outcomes FRAME has, the payload's length and the decode. -/
theorem masterFlagDoesNotFrame : Obligations.MasterFlagDoesNotFrame := by
  intro s hdr hdr' rest hack hb hmod
  have hbits : hdrBits hdr' = hdrBits hdr := BitVec.eq_of_toNat_eq (by rw [hdrBits_toNat, hdrBits_toNat, hmod])
  have hdrop (n : Nat) : (hdr' :: rest).drop (1 + n) = s.buf.drop (1 + n) := by
    rw [hb, Nat.add_comm, List.drop_succ_cons, List.drop_succ_cons]
  have hclass (h : Byte) : classify s.cfg s.ackPending h = if hdrBits h = 0 then .empty else .data :=
    hack ▸ classify_noAck s.cfg h
  by_cases h0 : hdrBits hdr = 0
  · exact framesAlike_of_deliver (frameStep_empty hb ((hclass hdr).trans (if_pos h0)))
      (frameStep_empty rfl ((hclass hdr').trans (if_pos (hbits.trans h0)))) hbits (hdrop 0)
  · have hk := (hclass hdr).trans (if_neg h0)
    have hk' := (hclass hdr').trans (if_neg (hbits ▸ h0))
    obtain hl | hl := Nat.lt_or_ge rest.length (payloadBytes (hdrBits hdr).toNat)
    · exact framesAlike_of_respond hdr' (frameStep_incomplete hb hk hl)
        (hbits ▸ frameStep_incomplete (s := { s with buf := hdr' :: rest }) rfl hk' (hbits ▸ hl)) nofun
    · exact framesAlike_of_deliver (frameStep_complete hb hk hl)
        (hbits ▸ frameStep_complete (s := { s with buf := hdr' :: rest }) rfl hk' (hbits ▸ hl)) hbits (hdrop _)

/-! ### The sentinels (R64) -/

/-- The configuration with other sentinels. -/
def withSentinels (c : Config) (v : Byte) (ms : List Byte) : Config :=
  { c with versionSentinel := v, modeSentinels := ms }

/-- The decode unit reads no sentinel. -/
theorem decodeFrame_withSentinels (c : Config) (v : Byte) (ms : List Byte) (bits : BitVec 7) (p : List Byte) :
    decodeFrame (withSentinels c v ms) bits p = decodeFrame c bits p := rfl

/-- The state under the configuration with other sentinels. -/
def underSentinels (s : State) (v : Byte) (ms : List Byte) : State := { s with cfg := withSentinels s.cfg v ms }

theorem classify_underSentinels {s : State} (v : Byte) (ms : List Byte) (hack : s.ackPending = false) (hdr : Byte) :
    classify (underSentinels s v ms).cfg (underSentinels s v ms).ackPending hdr
      = classify s.cfg s.ackPending hdr := by
  change classify (underSentinels s v ms).cfg s.ackPending hdr = _
  rw [hack, classify_noAck, classify_noAck]

theorem frameStep_underSentinels {s : State} (v : Byte) (ms : List Byte) (hack : s.ackPending = false) :
    (underSentinels s v ms).frameStep = { s.frameStep with cfg := withSentinels s.cfg v ms } := by
  cases hb : s.buf with
  | nil =>
    rw [frameStep_nil hb, frameStep_nil (s := underSentinels s v ms) hb]
    rfl
  | cons hdr rest =>
    have hclass := classify_underSentinels v ms hack hdr
    have hb' : (underSentinels s v ms).buf = hdr :: rest := hb
    cases hk : classify s.cfg s.ackPending hdr with
    | version =>
      rw [frameStep_version hb hk, frameStep_version hb' (hclass.trans hk)]
      rfl
    | mode =>
      rw [frameStep_mode hb hk, frameStep_mode hb' (hclass.trans hk)]
      rfl
    | empty =>
      rw [frameStep_empty hb hk, frameStep_empty hb' (hclass.trans hk)]
      rfl
    | data =>
      obtain hl | hl := Nat.lt_or_ge rest.length (payloadBytes (hdrBits hdr).toNat)
      · rw [frameStep_incomplete hb hk hl, frameStep_incomplete hb' (hclass.trans hk) hl]
        rfl
      · rw [frameStep_complete hb hk hl, frameStep_complete hb' (hclass.trans hk) hl, underSentinels,
          decodeFrame_withSentinels]
        rfl

/-- Settles O28: FRAME reads the sentinels only to classify the header, and then only with ACK_PENDING. -/
theorem sentinelsMatterOnlyWithAck : Obligations.SentinelsMatterOnlyWithAck := by
  intro s v ms t hack hexec
  obtain rfl : s.frameStep = t := Host.Outcome.next.inj hexec
  exact congrArg Host.Outcome.next (frameStep_underSentinels v ms hack)

end Sys2Proof.Proofs
end

section
/-! The byte stream through BUF (spec 20_memory.md R41; 40_framer.md R80, R81): a PUSH puts its byte behind the buffer,
a FRAME takes its frame off the front, and no byte is lost or reordered. -/

namespace Sys2Proof.Proofs

open Sys2Proof Sys2Proof.Machine

theorem framedBytes_cons (r : Response) (rs : List Response) :
    framedBytes (r :: rs) = framedBytes [r] ++ framedBytes rs := List.flatMap_append (xs := [r])

theorem pushedBytes_cons (i : Instr) (is : List Instr) : pushedBytes (i :: is) = pushedBy i ++ pushedBytes is :=
  List.flatMap_cons

theorem execAll_cons {i : Instr} {s t : State} (h : exec i s = .next t) (is : List Instr) :
    execAll (i :: is) s = execAll is t := by
  rw [execAll, h]

/-- One command passes the stream on: it answers one response, whose frame and the buffer it leaves are the buffer
before and the byte pushed. -/
def PassesStream (i : Instr) (s : State) : Prop :=
  ∃ t r, exec i s = .next t ∧ t.cfg = s.cfg ∧ t.outbox = s.outbox ++ [r]
    ∧ framedBytes [r] ++ t.buf = s.buf ++ pushedBy i

theorem push_passesStream (b : Byte) {s : State} (hroom : s.buf.length < s.cfg.bufCap) : PassesStream (.push b) s := by
  obtain ⟨-, -, hstores⟩ := pushStoresOrIsFull s b
  exact ⟨_, _, hstores hroom.ne, rfl, rfl, rfl⟩

theorem frame_passesStream (s : State) : PassesStream .frame s := by
  obtain ⟨st, d0, d1, -, hs⟩ | ⟨hdr, p, dr, hfront, hs⟩ := frameStep_outcome s
  · exact ⟨_, _, exec_frame_of_respond hs, rfl, rfl, (List.append_nil _).symm⟩
  · refine ⟨_, _, exec_frame_of_deliver hs rfl, rfl, rfl, ?_⟩
    simpa [framedBytes, Event.frameBytes, mkEvent, pushedBy] using hfront.append_drop

/-- Settles O29, by induction on the commands: the bytes still buffered and still to be pushed keep fitting BUF. -/
theorem framedStreamIsPushedStream : Obligations.FramedStreamIsPushedStream := by
  intro is
  induction is with
  | nil => exact fun s _ _ => ⟨s, [], rfl, (List.append_nil _).symm, rfl, (List.append_nil _).symm⟩
  | cons i is ih =>
    intro s his hfits
    obtain ⟨hi, his⟩ := List.forall_mem_cons.mp his
    rw [pushedBytes_cons, List.length_append] at hfits
    have hone : PassesStream i s := by
      obtain rfl | ⟨b, rfl⟩ := hi
      · exact frame_passesStream s
      · rw [pushedBy, List.length_singleton] at hfits
        exact push_passesStream b (by omega)
    obtain ⟨u, r, hexec, hcfg, hout, hstream⟩ := hone
    have hlen := congrArg List.length hstream
    rw [List.length_append, List.length_append] at hlen
    obtain ⟨t, rs, hall, hout', hcount, hstream'⟩ := ih u his (by rw [hcfg]; omega)
    refine ⟨t, r :: rs, (execAll_cons hexec is).trans hall, ?_, congrArg (· + 1) hcount, ?_⟩
    · rw [hout', hout, List.append_assoc, List.singleton_append]
    · calc framedBytes (r :: rs) ++ t.buf
          = framedBytes [r] ++ (u.buf ++ pushedBytes is) := by rw [framedBytes_cons, List.append_assoc, hstream']
        _ = s.buf ++ pushedBytes (i :: is) := by
            rw [← List.append_assoc, hstream, pushedBytes_cons, List.append_assoc]

end Sys2Proof.Proofs
end

section
/-! The commands that only read (spec 20_memory.md R48): STAT, and the readers of FR, which are determined by FR and
the configuration. -/

namespace Sys2Proof.Proofs

open Sys2Proof Sys2Proof.Machine

/-- In every state with the configuration and FR of `s`, the command answers the same data words, or it raises the same
error. -/
def ReadsFrame (i : Instr) (s : State) : Prop :=
  (∃ d0 d1, ∀ t : State, t.cfg = s.cfg → t.fr = s.fr → exec i t = .next (t.respond .ok d0 d1))
    ∨ ∃ c, ∀ t : State, t.cfg = s.cfg → t.fr = s.fr → exec i t = .next (t.raise c)

/-- A command that is `readFrame` with the same range and data words under the same configuration. -/
theorem readsFrame_of_exec {i : Instr} {s : State} {g : FrameReg → Bool} {d0 d1 : FrameReg → DataWord}
    (h : ∀ t : State, t.cfg = s.cfg → exec i t = .next (t.readFrame g d0 d1)) : ReadsFrame i s := by
  cases hf : s.fr with
  | none =>
    exact .inr ⟨.eRange, fun t hcfg hfr => (h t hcfg).trans (congrArg _ (t.readFrame_none _ _ _ (hfr.trans hf)))⟩
  | some f =>
    cases hg : g f with
    | false =>
      exact .inr ⟨.eRange, fun t hcfg hfr =>
        (h t hcfg).trans (congrArg _ (t.readFrame_outOfRange _ _ _ f (hfr.trans hf) hg))⟩
    | true =>
      exact .inl ⟨d0 f, d1 f, fun t hcfg hfr =>
        (h t hcfg).trans (congrArg _ (t.readFrame_inRange _ _ _ f (hfr.trans hf) hg))⟩

theorem readsFrame_cksum (k : Byte) (s : State) : ReadsFrame (.cksum k) s := by
  by_cases hk : k.toNat < 1 ∨ 8 < k.toNat
  · exact .inr ⟨.eIll, fun t _ _ => exec_cksum_of_illegal hk t⟩
  · obtain ⟨v, rfl⟩ := exists_variant_of_legal (k := k) (by omega) (by omega)
    exact readsFrame_of_exec fun t hcfg => hcfg ▸ exec_cksum_of_variant v t

theorem readsFrame_key (s : State) : ReadsFrame .key s :=
  readsFrame_of_exec (d1 := fun f => keyWord s.cfg f.key) fun t hcfg => by
    rw [← hcfg]
    rfl

/-- The command answers, changes at most the sticky bits, and issued again answers the same and changes nothing more. -/
def IsIdempotent (i : Instr) (s : State) : Prop :=
  ∃ t r, exec i s = .next t ∧ t = { s with errIll := t.errIll, errRange := t.errRange, outbox := s.outbox ++ [r] }
    ∧ ∃ u, exec i t = .next u ∧ u = { t with outbox := t.outbox ++ [r] }

/-- An answer leaves the configuration and FR alone, and so does an error, whose sticky bit is then set already. -/
theorem ReadsFrame.isIdempotent {i : Instr} {s : State} (h : ReadsFrame i s) : IsIdempotent i s := by
  obtain ⟨d0, d1, hexec⟩ | ⟨c, hexec⟩ := h
  · exact ⟨_, ⟨.ok, d0, d1, none⟩, hexec s rfl rfl, rfl, _, hexec _ rfl rfl, rfl⟩
  · refine ⟨_, ⟨errorStatus c, 0, 0, none⟩, hexec s rfl rfl, ?_, _, hexec _ ?_ ?_, ?_⟩ <;> simp [raise_eq]

theorem stat_isIdempotent (s : State) : IsIdempotent .stat s :=
  ⟨_, _, exec_stat s, rfl, _, exec_stat _, rfl⟩

/-- Settles O38: what is left is STAT, which no sticky bit hinders, and the readers of FR. -/
theorem readersAreIdempotent : Obligations.ReadersAreIdempotent := by
  intro s i hframe hclear hpush hsetack
  cases i with
  | push b => exact absurd rfl (hpush b)
  | frame => exact absurd rfl hframe
  | clear => exact absurd rfl hclear
  | setack v => exact absurd rfl (hsetack v)
  | stat => exact stat_isIdempotent s
  | cksum k => exact (readsFrame_cksum k s).isIdempotent
  | key => exact (readsFrame_key s).isIdempotent
  | nib j | nsum n | temp => exact (readsFrame_of_exec fun _ _ => rfl).isIdempotent

end Sys2Proof.Proofs
end

section
/-! What the arithmetic unit and the extractors read (spec 42_nibble_checksum.md R138, R141, R143, R152). -/

namespace Sys2Proof.Proofs

open Sys2Proof Sys2Proof.Machine

/-! ### The checksum byte as an accumulator (R138) -/

/-- Adding nibbles into a byte gives their exact sum modulo 256. -/
theorem foldl_nib_eq_nsum (p : List Byte) (n : Nat) :
    (List.range n).foldl (fun acc j => acc + (nib p j).zeroExtend 8) (0 : Byte) = BitVec.ofNat 8 (nsum p n) := by
  induction n with
  | zero => rfl
  | succ n ih =>
    rw [List.range_succ, List.foldl_append, List.foldl_cons, List.foldl_nil, ih, nsum_succ, BitVec.ofNat_add,
      BitVec.ofNat_toNat]

/-- Settles O50: the accumulator and S are the exact sum less 10, modulo 256. -/
theorem checksumByteAccumulator : Obligations.ChecksumByteAccumulator := by
  intro x p
  apply BitVec.eq_of_toNat_eq
  have hten : (10 : Byte).toNat = 10 := rfl
  rw [foldl_nib_eq_nsum, toNat_ckSum, BitVec.toNat_sub, BitVec.toNat_ofNat, hten]
  omega

/-! ### The temperature (R141, R143) -/

theorem tempMag_congr {p q : List Byte} (h8 : nib p 8 = nib q 8) (h10 : nib p 10 = nib q 10)
    (h11 : nib p 11 = nib q 11) : tempMag p = tempMag q := by
  simp only [tempMag, tempTensNibble, tempOnesNibble, tempTenthsNibble, h8, h10, h11]

/-- Settles O36: magnitude and sign are read from the four places, and the magnitude is at most 1665. -/
theorem temperatureReadsFourPlaces : Obligations.TemperatureReadsFourPlaces := by
  intro p q
  refine ⟨fun h8 h10 h11 hsign => ?_, ?_⟩
  · have hmag := tempMag_congr h8 h10 h11
    have hneg : tempNeg p = tempNeg q := hsign
    exact ⟨by rw [tempValue, tempValue, hmag, hneg], by rw [tempWord, tempWord, hmag, hneg]⟩
  · have hmag := tempMag_le p
    rw [tempValue]
    split <;> omega

/-! ### The extractors (R152) -/

section Agree
variable {p q : List Byte} {n : Nat}

theorem byteAt_congr (h : p.take n = q.take n) {i : Nat} (hi : i < n) : byteAt p i = byteAt q i := by
  rw [byteAt, byteAt, List.getD_eq_getElem?_getD, List.getD_eq_getElem?_getD, ← List.getElem?_take_of_lt hi, h,
    List.getElem?_take_of_lt hi]

theorem nib_congr (h : p.take n = q.take n) {j : Nat} (hj : j / 2 < n) : nib p j = nib q j := by
  rw [nib, nib, byteAt_congr h hj]

/-- The four places of the temperature lie in the first 7 bytes (R141). -/
theorem tempMeas_congr (h : p.take n = q.take n) (hn : tempBytes ≤ n) : tempMeas p = tempMeas q := by
  rw [tempBytes] at hn
  obtain ⟨hplaces, -⟩ := temperatureReadsFourPlaces p q
  obtain ⟨hvalue, -⟩ := hplaces (nib_congr h (by omega)) (nib_congr h (by omega)) (nib_congr h (by omega))
    (by rw [byteAt_congr h (by omega)])
  rw [tempMeas, tempMeas, hvalue]

theorem readable_congr {c : Config} {m : Method} (hm : reqBytes? c m = some n) (h : p.take n = q.take n) :
    readable c m p = readable c m q := by
  rw [readable, readable, hm]
  exact h

end Agree

/-- The methods with a temperature may read the bytes it needs (R158). -/
theorem tempBytes_le_of_isTempMethod {c : Config} (hc : ReqOk c.req) {m : Method} {n : Nat}
    (hm : reqBytes? c m = some n) (ht : isTempMethod m = true) : tempBytes ≤ n := by
  obtain ⟨⟨hcommon, hhum, hpres⟩, -⟩ := hc
  cases m with
  | commonTemp => exact Option.some.inj hm ▸ hcommon
  | tempHum => exact Option.some.inj hm ▸ hhum
  | tempHumPressure => exact Option.some.inj hm ▸ hpres
  | anemometer | rain | uv | dateTime | battery => cases ht

/-- Settles O49: the open functions get the readable bytes only, and the temperature reads no others. -/
theorem extractorReadsOnlyRequiredBytes : Obligations.ExtractorReadsOnlyRequiredBytes := by
  intro c m n p q part hc hm _ htake
  obtain ⟨-, -, -, hreq, -⟩ := hc
  have hread := readable_congr hm htake
  have htemp (ht : isTempMethod m = true) := tempMeas_congr htake (tempBytes_le_of_isTempMethod hreq hm ht)
  cases m with
  | commonTemp => simp only [extract, extractCommonTemp, extraMeas, hread, htemp rfl]
  | tempHum => simp only [extract, extractTempHum, humMeas, extraMeas, hread, htemp rfl]
  | tempHumPressure =>
    simp only [extract, extractTempHumPressure, humMeas, presMeas, extraMeas, hread, htemp rfl]
  | anemometer | rain | uv => simp only [extract, extractOpen, hread]
  | dateTime => simp only [extract, extractDateTime, hread]
  | battery => simp only [extract, extractBattery, hread]

end Sys2Proof.Proofs
end

section
/-! The decoder table of an accepted configuration (spec 41_decode.md R115, R116): a frame's key leads only to rows that
were checked for the frame's length, and the two known type codes lead to their rows. -/

namespace Sys2Proof.Proofs

open Sys2Proof Sys2Proof.Machine Sys2Proof.Laws

/-! ### The bit-length in a key (R111, R116) -/

theorem keyBits_eq_mod (key : Key) : keyBits key = key.toNat % 256 := by
  rw [keyBits, BitVec.extractLsb'_toNat, Nat.shiftRight_zero]

theorem keyBits_dispatchKey (p : List Byte) (bits : BitVec 7) : keyBits (dispatchKey p bits) = bits.toNat := by
  have hbits := bits.isLt
  rw [keyBits_eq_mod, dispatchKey, toNat_append_eq_add, toNat_append_eq_add, BitVec.ofNat_eq_ofNat, BitVec.toNat_ofNat,
    Nat.zero_mod]
  omega

/-- The mask keeps the bit-length (R112). -/
theorem keyBits_maskedKey (key : Key) : keyBits (maskedKey key) = keyBits key := by
  rw [keyBits_eq_mod, keyBits_eq_mod, toNat_maskedKey]
  omega

/-- Either probe finds a row of the key's bit-length (R113). -/
theorem exists_row_of_lookupEntry {c : Config} {key : Key} {e : Entry} {lk : Lookup}
    (h : lookupEntry c key = some (e, lk)) : ∃ row, (row, e) ∈ c.table ∧ keyBits row = keyBits key := by
  obtain ⟨e', hprobe, he⟩ | ⟨-, e', hprobe, he⟩ | ⟨-, -, he⟩ := lookupEntry_cases c key
  · obtain ⟨rfl, -⟩ := Prod.mk.inj (Option.some.inj (he.symm.trans h))
    exact ⟨key, mem_table_of_probe c _ e' hprobe, rfl⟩
  · obtain ⟨rfl, -⟩ := Prod.mk.inj (Option.some.inj (he.symm.trans h))
    exact ⟨maskedKey key, mem_table_of_probe c _ e' hprobe, keyBits_maskedKey key⟩
  · cases he.symm.trans h

/-- Settles O45: the row found has the frame's bit-length, and its reads were checked for that length. -/
theorem decodeReadsInsidePayload : Obligations.DecodeReadsInsidePayload := by
  intro c bits p e lk hc _ hp hlookup
  obtain ⟨-, -, -, -, ⟨-, hrows, -⟩, -⟩ := hc
  obtain ⟨row, hrow, hbits⟩ := exists_row_of_lookupEntry hlookup
  have hbytes : keyBytes row = p.length := by rw [keyBytes, hbits, keyBits_dispatchKey, payloadBytes, hp]
  obtain ⟨-, haddr, hck, hmethod, hpart⟩ := hrows (row, e) hrow
  simp only [hbytes] at haddr hck hmethod
  refine ⟨haddr, hpart, fun v hv => ?_, fun m hm => ?_⟩
  · rw [hv] at hck
    exact of_decide_eq_true hck
  · rw [hm, Option.all_some, Option.any_eq_true] at hmethod
    obtain ⟨n, hn, hle⟩ := hmethod
    exact ⟨n, hn, of_decide_eq_true hle⟩

/-! ### Known telegrams (R115) -/

theorem exists_entry_of_routes {c : Config} {key : Key} {test : Entry → Bool} (h : routes c key test = true) :
    ∃ e lk, lookupEntry c key = some (e, lk) ∧ test e = true := by
  rw [routes] at h
  split at h
  next e lk he => exact ⟨e, lk, he, h⟩
  next => cases h

/-- Whatever the checksum gate decides, a handled entry's part, variant and method are reported (R119 to R121). -/
theorem decodeEntry_reports {c : Config} {key : Key} {e : Entry} {lk : Lookup} {m : Method} {p : List Byte}
    (hm : e.method = some m) :
    (decodeEntry c key e lk p).part = some e.part ∧ (decodeEntry c key e lk p).cksel = some (ckCode e.ck)
      ∧ (decodeEntry c key e lk p).method = some m := by
  cases hgate : ckGate c e p with
  | false =>
    rw [decodeEntry_ckFail hm hgate]
    exact ⟨rfl, rfl, rfl⟩
  | true =>
    rw [decodeEntry_ok hm hgate]
    exact ⟨rfl, rfl, rfl⟩

/-- FRAME of a complete DATA frame whose key has an entry: the event reports that entry's decoding (R87, R117). -/
theorem exec_frame_of_entry {s : State} {hdr : Byte} {p rest : List Byte} {key : Key} {e : Entry} {lk : Lookup}
    (hdata : DataHeader s hdr) (hb : s.buf = hdr :: (p ++ rest)) (hp : p.length = (hdr.toNat % 128 + 7) / 8)
    (h2 : typeCodeBytes ≤ p.length) (hkey : dispatchKey p (BitVec.ofNat 7 hdr.toNat) = key)
    (he : lookupEntry s.cfg key = some (e, lk)) :
    ∃ (t : State) (ev : Event), exec .frame s = .next t ∧ t.buf = rest ∧ t.outbox = s.outbox ++ [⟨.ok, 0, 0, some ev⟩]
      ∧ ev.toDecodeResult = decodeEntry s.cfg key e lk p := by
  subst hkey
  obtain ⟨ev, hexec, hdecode, -⟩ := frameDataRemovesOneFrame s hdr p rest hb hdata hp
  exact ⟨_, ev, hexec, rfl, rfl, hdecode.trans (decodeFrame_entry h2 he)⟩

/-- Type code 0x1A2D at 80 bits (R115 (a)). -/
theorem dispatchKey_thgr (more : List Byte) : dispatchKey (0x1A :: 0x2D :: more) 80 = thgrKey :=
  BitVec.eq_of_toNat_eq (toNat_dispatchKey ..)

/-- Type code 0x9AEC at 104 bits (R115 (b)). -/
theorem dispatchKey_dateTime (more : List Byte) : dispatchKey (0x9A :: 0xEC :: more) 104 = dateTimeKey :=
  BitVec.eq_of_toNat_eq (toNat_dispatchKey ..)

/-- The gate of an entry that names a variant is that variant's comparison (R120). -/
theorem ckGate_of_variant {c : Config} {e : Entry} {v : CkSel} (hck : e.ck = some v) (p : List Byte) :
    ckGate c e p = ckPass c.ck[v] p := by
  rw [ckGate, hck]

/-- Settles O47: the telegram's key is the known row's, whose variant is the gate and whose method starts with the
temperature and the humidity. -/
theorem thgrTelegramRoutes : Obligations.ThgrTelegramRoutes := by
  intro s a b q rest hc hdata hq hb p
  obtain ⟨-, -, -, -, ⟨-, -, hroutes, -⟩, -⟩ := hc
  obtain ⟨e, lk, he, htest⟩ := exists_entry_of_routes hroutes
  obtain ⟨hname, hck, hm⟩ := of_decide_eq_true htest
  have hp : p.length = 10 := by simp [p, hq]
  have h2 : typeCodeBytes ≤ p.length := hp ▸ by decide
  obtain ⟨t, ev, hexec, hbuf, hout, hev⟩ := exec_frame_of_entry (p := p) hdata hb hp h2 (dispatchKey_thgr _) he
  obtain ⟨hpart, hcksel, hmethod⟩ := hev ▸ decodeEntry_reports hm
  have hgate : ckGate s.cfg e p = ckPass s.cfg.ck[1] p := ckGate_of_variant hck p
  rw [hck] at hcksel
  refine ⟨t, ev, e.part, hexec, hbuf, hout, hpart, hname, hcksel, hmethod, fun hpass => ?_, fun hfail => ?_⟩
  · rw [decodeEntry_ok hm (hgate.trans hpass)] at hev
    rw [hev]
    exact ⟨rfl, rfl, rfl, humMeas s.cfg .tempHum p, extraMeas s.cfg .tempHum p, rfl, rfl⟩
  · rw [decodeEntry_ckFail hm (hgate.trans hfail)] at hev
    rw [hev]
    exact ⟨rfl, rfl, rfl⟩

/-- The date/time extractor gives components only (R156). -/
theorem kind_of_mem_extract_dateTime {c : Config} {p : List Byte} {part : PartId} {x : Measurement}
    (hx : x ∈ extract c .dateTime p part) : ∃ component, x.kind = .dateTime component := by
  rw [extract, extractDateTime, List.mem_map] at hx
  obtain ⟨y, -, rfl⟩ := hx
  exact ⟨y.1, rfl⟩

/-- Settles O48: the telegram's key is the known row's, whose method gives only date/time components; a failed
checksum gives no measurement. -/
theorem dateTimeTelegramRoutes : Obligations.DateTimeTelegramRoutes := by
  intro s q rest hc hdata hq hb
  obtain ⟨-, -, -, -, ⟨-, -, -, hroutes, -⟩, -⟩ := hc
  obtain ⟨e, lk, he, htest⟩ := exists_entry_of_routes hroutes
  have hm : e.method = some .dateTime := of_decide_eq_true htest
  have hp : (0x9A :: 0xEC :: q : List Byte).length = 13 := by simp [hq]
  have h2 : typeCodeBytes ≤ (0x9A :: 0xEC :: q : List Byte).length := hp ▸ by decide
  obtain ⟨t, ev, hexec, hbuf, hout, hev⟩ := exec_frame_of_entry hdata hb hp h2 (dispatchKey_dateTime _) he
  obtain ⟨-, -, hmethod⟩ := hev ▸ decodeEntry_reports hm
  refine ⟨t, ev, hexec, hbuf, hout, hmethod, ?_⟩
  cases hgate : ckGate s.cfg e (0x9A :: 0xEC :: q) with
  | false =>
    rw [hev, decodeEntry_ckFail hm hgate]
    exact ⟨.inr rfl, fun _ hx => absurd hx List.not_mem_nil⟩
  | true =>
    rw [hev, decodeEntry_ok hm hgate]
    exact ⟨.inl rfl, fun _ hx => kind_of_mem_extract_dateTime hx⟩

end Sys2Proof.Proofs
end
